-- ==== Sys2Proof/Word.lean ====
section
/-! DEFINITION. The word types of FXALU: what a register, a table entry and a command field hold. -/

namespace Sys2Proof

/-- A pattern: 32 bits without a signed or unsigned reading (00_scope.md R9, 10_state.md R20, R22). -/
abbrev Word := BitVec 32

/-- A sine-table entry's 16 bits (10_state.md R38). -/
abbrev Half := BitVec 16

/-- A byte of a window access (20_memory.md R61). -/
abbrev Byte := BitVec 8

/-- The number of a general register, `r0` to `r15` (10_state.md R20). -/
abbrev Reg := Fin 16

/-- The immediate of format I, 0 to 31, no scaling and no sign (30_encoding.md R86). -/
abbrev Imm5 := Fin 32

end Sys2Proof
end

