-- ==== Sys2Proof/Machine/Arith.lean ====
section
/-! DEFINITION. The integer functions of the pseudocode (00_scope.md R9): every rule computes on unbounded integers
and narrows explicitly. -/

namespace Sys2Proof.Machine

/-- `u32(p)`: the pattern as a non-negative integer. -/
def u32 (p : Word) : Nat := p.toNat

/-- `s32(p)`: the two's complement reading. -/
def s32 (p : Word) : Int := p.toInt

/-- `s16(p)`, and `sext_16`: a 16-bit pattern read as signed. -/
def s16 (p : Half) : Int := p.toInt

/-- `wrap32(v)`: the pattern congruent to `v` modulo 2^32. -/
def wrap32 (v : Int) : Word := .ofInt 32 v

/-- `asr(v, n) = floor(v / 2^n)`: Lean's `/` on `Int` is the floor for a positive divisor. -/
def asr (v : Int) (n : Nat) : Int := v / 2 ^ n

/-- `lsr(p, n) = floor(u32(p) / 2^n)`. -/
def lsr (p : Word) (n : Nat) : Nat := u32 p / 2 ^ n

/-- `tdiv(a, b)`: the quotient rounded toward zero, for `b` other than 0. -/
def tdiv (a b : Int) : Int := a.tdiv b

/-- The Boolean of a comparison as a pattern, 1 or 0 (43_point.md R167). -/
def boolWord (b : Bool) : Word := if b then 1 else 0

end Sys2Proof.Machine
end

