-- ==== Sys2Proof/Config.lean ====
section
/-! DEFINITION. The parameters of the block: those the spec fixes (00_scope.md R5, R6) and those it leaves open (R7).
An open parameter that no run can observe is a constant without a body. -/

namespace Sys2Proof

/-- Fractional bits of FixedPoint (R5 `FIX_SHIFT`). -/
def Config.fixShift : Nat := 8
/-- Scale factor of FixedPoint (R5 `FIX_SCALE`). -/
def Config.fixScale : Nat := 256
/-- Entries of the sine table (R5 `SINLUT_LEN`). -/
def Config.sinLutLen : Nat := 514
/-- Sine samples of a full turn (R5 `SIN_PERIOD`). -/
def Config.sinPeriod : Nat := 512
/-- Fractional bits of a sine entry (R5 `SIN_FRAC`). -/
def Config.sinFrac : Nat := 12
/-- Angle units of a full turn (R5 `TURN`). -/
def Config.turn : Nat := 65536
/-- Entries of the reciprocal table (R5 `DIVLUT_LEN`). -/
def Config.divLutLen : Nat := 257
/-- Fractional bits of a reciprocal entry (R5 `DIV_FRAC`). -/
def Config.divFrac : Nat := 16

/-- `DIVLUT0` (R7): the content of the sentinel entry 0 of the reciprocal table. Open; no command can deliver it
(20_memory.md R56). Free value, assumption log 5. -/
opaque Config.divLut0 : Word

/-- `WINDOW_BASE` (R7): where the host's bus sees the register window. Open; no rule depends on it
(10_state.md R30, 20_memory.md R64). Free value, assumption log 7. -/
opaque Config.windowBase : Nat

end Sys2Proof
end

