-- ==== Sys2Proof/Syntax.lean ====
section
/-! DEFINITION. The commands of FXALU-1: one constructor per row of spec/opcode_table.json (30_encoding.md R85). -/

namespace Sys2Proof

/-- A command. A register field holds the number of a register, or of the first register of a group (R83).
Operands stand in the field order rd, ra, rb, rc, re, then the immediate (30_encoding.md R89). -/
inductive Instr where
  | fromint (rd ra : Reg)                 -- 0x10, R111
  | touint (rd ra : Reg)                  -- 0x11, R112
  | tofrac (rd ra : Reg)                  -- 0x12, R113
  | toint (rd ra : Reg)                   -- 0x13, R114
  | add (rd ra rb : Reg)                  -- 0x14, R115
  | sub (rd ra rb : Reg)                  -- 0x15, R116
  | mul (rd ra rb : Reg)                  -- 0x16, R117
  | mul64 (rd ra rb : Reg)                -- 0x17, R118
  | div (rd ra rb : Reg)                  -- 0x18, R119
  | div64 (rd ra rb : Reg)                -- 0x19, R120
  | recimul (rd ra rb : Reg) (imm : Imm5) -- 0x1A, R121
  | lerp16 (rd ra : Reg) (imm : Imm5)     -- 0x20, R141
  | lerp32 (rd ra : Reg) (imm : Imm5)     -- 0x21, R142
  | sin (rd ra : Reg)                     -- 0x30, R150
  | cos (rd ra : Reg)                     -- 0x31, R151
  | recip (rd ra : Reg)                   -- 0x32, R152
  | ptset (rd ra rb : Reg)                -- 0x40, R161
  | ptadd (rd ra rb : Reg)                -- 0x41, R162
  | ptsub (rd ra rb : Reg)                -- 0x42, R163
  | ptscale (rd ra rb : Reg)              -- 0x43, R164
  | ptcross (rd ra rb : Reg)              -- 0x44, R165
  | ptdot (rd ra rb : Reg)                -- 0x45, R166
  | ptinrect (rd ra rb : Reg)             -- 0x46, R167
  | rcset (rd ra rb rc re : Reg)          -- 0x50, R181
  | rcseto (rd ra rb rc re : Reg)         -- 0x51, R182
  | rcwidth (rd ra : Reg)                 -- 0x52, R183
  | rcheight (rd ra : Reg)                -- 0x53, R184
  | rcsetpos (rd ra rb : Reg)             -- 0x54, R185
  | rcsetsize (rd ra rb : Reg)            -- 0x55, R186
  | rcmove (rd ra rb : Reg)               -- 0x56, R187
  | rcinfl (rd ra rb : Reg)               -- 0x57, R188
  | rcinflr (rd ra rb : Reg)              -- 0x58, R189
  | rcnorm (rd ra : Reg)                  -- 0x59, R190
  | vset (rd ra rb rc : Reg)              -- 0x60, R201
  | vadd (rd ra rb : Reg)                 -- 0x61, R202
  | vsub (rd ra rb : Reg)                 -- 0x62, R203
  | vmul (rd ra rb : Reg)                 -- 0x63, R204
  | vscale (rd ra rb : Reg)               -- 0x64, R205
  | vdot (rd ra rb : Reg)                 -- 0x65, R206
  | vcross (rd ra rb : Reg)               -- 0x66, R207
  deriving DecidableEq, Repr

end Sys2Proof
end

