-- ==== Sys2Proof/WellFormed.lean ====
section
/-! DEFINITION. Operand kinds and the bounds of register groups (30_encoding.md R83, R84, R88). -/

namespace Sys2Proof

/-- The four kinds of a register field (30_encoding.md R83). -/
inductive Kind where
  | reg
  | point
  | vector
  | rect
  deriving DecidableEq, Repr

/-- How many consecutive registers an operand of the kind names (30_encoding.md R84, 00_scope.md R11). -/
def Kind.size : Kind → Nat
  | .reg => 1
  | .point => 2
  | .vector => 3
  | .rect => 4

/-- A register operand: its kind and the number in its field. -/
abbrev Operand := Kind × Reg

/-- The operand does not run past `r15`; groups do not wrap to `r0` (30_encoding.md R84, R88). -/
def Operand.fits (o : Operand) : Bool := o.2.val + o.1.size ≤ 16

/-- The registers an operand names, lowest first (00_scope.md R11). -/
def Operand.regs (o : Operand) : List Reg :=
  match o.1 with
  | .reg => [o.2]
  | .point => [o.2, o.2 + 1]
  | .vector => [o.2, o.2 + 1, o.2 + 2]
  | .rect => [o.2, o.2 + 1, o.2 + 2, o.2 + 3]

/-- The register operands of a command with their kinds, in field order: the column "Operand kinds" of
30_encoding.md R85. The first one is the destination. -/
def Instr.operands : Instr → List Operand
  | .fromint rd ra => [(.reg, rd), (.reg, ra)]
  | .touint rd ra => [(.reg, rd), (.reg, ra)]
  | .tofrac rd ra => [(.reg, rd), (.reg, ra)]
  | .toint rd ra => [(.reg, rd), (.reg, ra)]
  | .add rd ra rb => [(.reg, rd), (.reg, ra), (.reg, rb)]
  | .sub rd ra rb => [(.reg, rd), (.reg, ra), (.reg, rb)]
  | .mul rd ra rb => [(.reg, rd), (.reg, ra), (.reg, rb)]
  | .mul64 rd ra rb => [(.reg, rd), (.reg, ra), (.reg, rb)]
  | .div rd ra rb => [(.reg, rd), (.reg, ra), (.reg, rb)]
  | .div64 rd ra rb => [(.reg, rd), (.reg, ra), (.reg, rb)]
  | .recimul rd ra rb _ => [(.reg, rd), (.reg, ra), (.reg, rb)]
  | .lerp16 rd ra _ => [(.reg, rd), (.reg, ra)]
  | .lerp32 rd ra _ => [(.reg, rd), (.reg, ra)]
  | .sin rd ra => [(.reg, rd), (.reg, ra)]
  | .cos rd ra => [(.reg, rd), (.reg, ra)]
  | .recip rd ra => [(.reg, rd), (.reg, ra)]
  | .ptset rd ra rb => [(.point, rd), (.reg, ra), (.reg, rb)]
  | .ptadd rd ra rb => [(.point, rd), (.point, ra), (.point, rb)]
  | .ptsub rd ra rb => [(.point, rd), (.point, ra), (.point, rb)]
  | .ptscale rd ra rb => [(.point, rd), (.point, ra), (.reg, rb)]
  | .ptcross rd ra rb => [(.reg, rd), (.point, ra), (.point, rb)]
  | .ptdot rd ra rb => [(.reg, rd), (.point, ra), (.point, rb)]
  | .ptinrect rd ra rb => [(.reg, rd), (.point, ra), (.rect, rb)]
  | .rcset rd ra rb rc re => [(.rect, rd), (.reg, ra), (.reg, rb), (.reg, rc), (.reg, re)]
  | .rcseto rd ra rb rc re => [(.rect, rd), (.reg, ra), (.reg, rb), (.reg, rc), (.reg, re)]
  | .rcwidth rd ra => [(.reg, rd), (.rect, ra)]
  | .rcheight rd ra => [(.reg, rd), (.rect, ra)]
  | .rcsetpos rd ra rb => [(.rect, rd), (.rect, ra), (.point, rb)]
  | .rcsetsize rd ra rb => [(.rect, rd), (.rect, ra), (.point, rb)]
  | .rcmove rd ra rb => [(.rect, rd), (.rect, ra), (.point, rb)]
  | .rcinfl rd ra rb => [(.rect, rd), (.rect, ra), (.point, rb)]
  | .rcinflr rd ra rb => [(.rect, rd), (.rect, ra), (.rect, rb)]
  | .rcnorm rd ra => [(.rect, rd), (.rect, ra)]
  | .vset rd ra rb rc => [(.vector, rd), (.reg, ra), (.reg, rb), (.reg, rc)]
  | .vadd rd ra rb => [(.vector, rd), (.vector, ra), (.vector, rb)]
  | .vsub rd ra rb => [(.vector, rd), (.vector, ra), (.vector, rb)]
  | .vmul rd ra rb => [(.vector, rd), (.vector, ra), (.vector, rb)]
  | .vscale rd ra rb => [(.vector, rd), (.vector, ra), (.reg, rb)]
  | .vdot rd ra rb => [(.reg, rd), (.vector, ra), (.vector, rb)]
  | .vcross rd ra rb => [(.vector, rd), (.vector, ra), (.vector, rb)]

/-- Every group operand lies inside the register file. With fields of four bits and an immediate of five this is
all that an illegal value of a used field can be (30_encoding.md R84, R86). -/
def Instr.wellFormed (i : Instr) : Bool := i.operands.all Operand.fits

/-- The registers a command writes when it raises no fault (10_state.md R21). -/
def Instr.destRegs (i : Instr) : List Reg := (i.operands.take 1).flatMap Operand.regs

/-- The registers a command reads (10_state.md R21). -/
def Instr.sourceRegs (i : Instr) : List Reg := (i.operands.drop 1).flatMap Operand.regs

/-- The mnemonic of 30_encoding.md R85. -/
def Instr.mnemonic : Instr → String
  | .fromint _ _ => "FROMINT"
  | .touint _ _ => "TOUINT"
  | .tofrac _ _ => "TOFRAC"
  | .toint _ _ => "TOINT"
  | .add _ _ _ => "ADD"
  | .sub _ _ _ => "SUB"
  | .mul _ _ _ => "MUL"
  | .mul64 _ _ _ => "MUL64"
  | .div _ _ _ => "DIV"
  | .div64 _ _ _ => "DIV64"
  | .recimul _ _ _ _ => "RECIMUL"
  | .lerp16 _ _ _ => "LERP16"
  | .lerp32 _ _ _ => "LERP32"
  | .sin _ _ => "SIN"
  | .cos _ _ => "COS"
  | .recip _ _ => "RECIP"
  | .ptset _ _ _ => "PTSET"
  | .ptadd _ _ _ => "PTADD"
  | .ptsub _ _ _ => "PTSUB"
  | .ptscale _ _ _ => "PTSCALE"
  | .ptcross _ _ _ => "PTCROSS"
  | .ptdot _ _ _ => "PTDOT"
  | .ptinrect _ _ _ => "PTINRECT"
  | .rcset _ _ _ _ _ => "RCSET"
  | .rcseto _ _ _ _ _ => "RCSETO"
  | .rcwidth _ _ => "RCWIDTH"
  | .rcheight _ _ => "RCHEIGHT"
  | .rcsetpos _ _ _ => "RCSETPOS"
  | .rcsetsize _ _ _ => "RCSETSIZE"
  | .rcmove _ _ _ => "RCMOVE"
  | .rcinfl _ _ _ => "RCINFL"
  | .rcinflr _ _ _ => "RCINFLR"
  | .rcnorm _ _ => "RCNORM"
  | .vset _ _ _ _ => "VSET"
  | .vadd _ _ _ => "VADD"
  | .vsub _ _ _ => "VSUB"
  | .vmul _ _ _ => "VMUL"
  | .vscale _ _ _ => "VSCALE"
  | .vdot _ _ _ => "VDOT"
  | .vcross _ _ _ => "VCROSS"

end Sys2Proof
end

