-- ==== Sys2Proof/Decode.lean ====
section
/-! DEFINITION. The decoder, total on every 32-bit word, and the encoder, both from the encoding tables of
30_encoding.md (R80 to R88). -/

namespace Sys2Proof

/-! ## Fields -/

/-- `w[31:24]` (R81). -/
def opcodeField (w : Word) : BitVec 8 := w.extractLsb' 24 8

/-- The four-bit register field whose lowest bit is bit `lo`. -/
def regField (w : Word) (lo : Nat) : Reg := (w.extractLsb' lo 4).toFin

/-- `w[23:20]` (R81). -/
def rdField (w : Word) : Reg := regField w 20
/-- `w[19:16]` (R81). -/
def raField (w : Word) : Reg := regField w 16
/-- `w[15:12]` (R81). -/
def rbField (w : Word) : Reg := regField w 12
/-- `w[11:8]` (R81). -/
def rcField (w : Word) : Reg := regField w 8
/-- `w[7:4]` (R81). -/
def reField (w : Word) : Reg := regField w 4
/-- `w[4:0]`, unsigned (R82, R86). -/
def immField (w : Word) : Imm5 := (w.extractLsb' 0 5).toFin

/-! ## Decoding -/

/-- Why a word is not a legal command (R84). All three raise IllegalCommand (60_exceptions.md R221). -/
inductive Illegal where
  /-- No row of R85 has the opcode (R87). -/
  | reservedOpcode
  /-- A field the command does not use, or `z`, or `zi`, is not zero (R88 a). -/
  | unusedFieldSet
  /-- A register group runs past `r15` (R88 b). -/
  | groupPastEnd
  deriving DecidableEq, Repr

/-- The two checks R84 makes once the row is found: `(w & mask) == match`, then the bounds of the groups. -/
def checkRow (w matchBits mask : Word) (i : Instr) : Except Illegal Instr :=
  if w &&& mask = matchBits then
    if i.wellFormed then .ok i else .error .groupPastEnd
  else .error .unusedFieldSet

/-- R84: the row with the word's opcode, its match and mask from R85, its operands from the word's fields. -/
def decode (w : Word) : Except Illegal Instr :=
  match opcodeField w with
  | 0x10#8 => checkRow w 0x10000000 0xFF00FFFF (.fromint (rdField w) (raField w))
  | 0x11#8 => checkRow w 0x11000000 0xFF00FFFF (.touint (rdField w) (raField w))
  | 0x12#8 => checkRow w 0x12000000 0xFF00FFFF (.tofrac (rdField w) (raField w))
  | 0x13#8 => checkRow w 0x13000000 0xFF00FFFF (.toint (rdField w) (raField w))
  | 0x14#8 => checkRow w 0x14000000 0xFF000FFF (.add (rdField w) (raField w) (rbField w))
  | 0x15#8 => checkRow w 0x15000000 0xFF000FFF (.sub (rdField w) (raField w) (rbField w))
  | 0x16#8 => checkRow w 0x16000000 0xFF000FFF (.mul (rdField w) (raField w) (rbField w))
  | 0x17#8 => checkRow w 0x17000000 0xFF000FFF (.mul64 (rdField w) (raField w) (rbField w))
  | 0x18#8 => checkRow w 0x18000000 0xFF000FFF (.div (rdField w) (raField w) (rbField w))
  | 0x19#8 => checkRow w 0x19000000 0xFF000FFF (.div64 (rdField w) (raField w) (rbField w))
  | 0x1A#8 => checkRow w 0x1A000000 0xFF000FE0 (.recimul (rdField w) (raField w) (rbField w) (immField w))
  | 0x20#8 => checkRow w 0x20000000 0xFF00FFE0 (.lerp16 (rdField w) (raField w) (immField w))
  | 0x21#8 => checkRow w 0x21000000 0xFF00FFE0 (.lerp32 (rdField w) (raField w) (immField w))
  | 0x30#8 => checkRow w 0x30000000 0xFF00FFFF (.sin (rdField w) (raField w))
  | 0x31#8 => checkRow w 0x31000000 0xFF00FFFF (.cos (rdField w) (raField w))
  | 0x32#8 => checkRow w 0x32000000 0xFF00FFFF (.recip (rdField w) (raField w))
  | 0x40#8 => checkRow w 0x40000000 0xFF000FFF (.ptset (rdField w) (raField w) (rbField w))
  | 0x41#8 => checkRow w 0x41000000 0xFF000FFF (.ptadd (rdField w) (raField w) (rbField w))
  | 0x42#8 => checkRow w 0x42000000 0xFF000FFF (.ptsub (rdField w) (raField w) (rbField w))
  | 0x43#8 => checkRow w 0x43000000 0xFF000FFF (.ptscale (rdField w) (raField w) (rbField w))
  | 0x44#8 => checkRow w 0x44000000 0xFF000FFF (.ptcross (rdField w) (raField w) (rbField w))
  | 0x45#8 => checkRow w 0x45000000 0xFF000FFF (.ptdot (rdField w) (raField w) (rbField w))
  | 0x46#8 => checkRow w 0x46000000 0xFF000FFF (.ptinrect (rdField w) (raField w) (rbField w))
  | 0x50#8 => checkRow w 0x50000000 0xFF00000F (.rcset (rdField w) (raField w) (rbField w) (rcField w) (reField w))
  | 0x51#8 => checkRow w 0x51000000 0xFF00000F (.rcseto (rdField w) (raField w) (rbField w) (rcField w) (reField w))
  | 0x52#8 => checkRow w 0x52000000 0xFF00FFFF (.rcwidth (rdField w) (raField w))
  | 0x53#8 => checkRow w 0x53000000 0xFF00FFFF (.rcheight (rdField w) (raField w))
  | 0x54#8 => checkRow w 0x54000000 0xFF000FFF (.rcsetpos (rdField w) (raField w) (rbField w))
  | 0x55#8 => checkRow w 0x55000000 0xFF000FFF (.rcsetsize (rdField w) (raField w) (rbField w))
  | 0x56#8 => checkRow w 0x56000000 0xFF000FFF (.rcmove (rdField w) (raField w) (rbField w))
  | 0x57#8 => checkRow w 0x57000000 0xFF000FFF (.rcinfl (rdField w) (raField w) (rbField w))
  | 0x58#8 => checkRow w 0x58000000 0xFF000FFF (.rcinflr (rdField w) (raField w) (rbField w))
  | 0x59#8 => checkRow w 0x59000000 0xFF00FFFF (.rcnorm (rdField w) (raField w))
  | 0x60#8 => checkRow w 0x60000000 0xFF0000FF (.vset (rdField w) (raField w) (rbField w) (rcField w))
  | 0x61#8 => checkRow w 0x61000000 0xFF000FFF (.vadd (rdField w) (raField w) (rbField w))
  | 0x62#8 => checkRow w 0x62000000 0xFF000FFF (.vsub (rdField w) (raField w) (rbField w))
  | 0x63#8 => checkRow w 0x63000000 0xFF000FFF (.vmul (rdField w) (raField w) (rbField w))
  | 0x64#8 => checkRow w 0x64000000 0xFF000FFF (.vscale (rdField w) (raField w) (rbField w))
  | 0x65#8 => checkRow w 0x65000000 0xFF000FFF (.vdot (rdField w) (raField w) (rbField w))
  | 0x66#8 => checkRow w 0x66000000 0xFF000FFF (.vcross (rdField w) (raField w) (rbField w))
  | _ => .error .reservedOpcode

/-! ## Encoding -/

/-- A register number as its field. -/
def regBits (r : Reg) : BitVec 4 := .ofFin r

/-- Format R (R81): opcode, rd, ra, rb, rc, re, and `z` = 0. -/
def encodeR (op : BitVec 8) (rd ra rb rc re : Reg) : Word :=
  op ++ regBits rd ++ regBits ra ++ regBits rb ++ regBits rc ++ regBits re ++ 0#4

/-- Format I (R82): opcode, rd, ra, rb, `zi` = 0, imm5. -/
def encodeI (op : BitVec 8) (rd ra rb : Reg) (imm : Imm5) : Word :=
  op ++ regBits rd ++ regBits ra ++ regBits rb ++ 0#7 ++ (.ofFin imm : BitVec 5)

/-- The command word of a command (R85); fields it does not use are zero. -/
def encode : Instr → Word
  | .fromint rd ra => encodeR 0x10#8 rd ra 0 0 0
  | .touint rd ra => encodeR 0x11#8 rd ra 0 0 0
  | .tofrac rd ra => encodeR 0x12#8 rd ra 0 0 0
  | .toint rd ra => encodeR 0x13#8 rd ra 0 0 0
  | .add rd ra rb => encodeR 0x14#8 rd ra rb 0 0
  | .sub rd ra rb => encodeR 0x15#8 rd ra rb 0 0
  | .mul rd ra rb => encodeR 0x16#8 rd ra rb 0 0
  | .mul64 rd ra rb => encodeR 0x17#8 rd ra rb 0 0
  | .div rd ra rb => encodeR 0x18#8 rd ra rb 0 0
  | .div64 rd ra rb => encodeR 0x19#8 rd ra rb 0 0
  | .recimul rd ra rb imm => encodeI 0x1A#8 rd ra rb imm
  | .lerp16 rd ra imm => encodeI 0x20#8 rd ra 0 imm
  | .lerp32 rd ra imm => encodeI 0x21#8 rd ra 0 imm
  | .sin rd ra => encodeR 0x30#8 rd ra 0 0 0
  | .cos rd ra => encodeR 0x31#8 rd ra 0 0 0
  | .recip rd ra => encodeR 0x32#8 rd ra 0 0 0
  | .ptset rd ra rb => encodeR 0x40#8 rd ra rb 0 0
  | .ptadd rd ra rb => encodeR 0x41#8 rd ra rb 0 0
  | .ptsub rd ra rb => encodeR 0x42#8 rd ra rb 0 0
  | .ptscale rd ra rb => encodeR 0x43#8 rd ra rb 0 0
  | .ptcross rd ra rb => encodeR 0x44#8 rd ra rb 0 0
  | .ptdot rd ra rb => encodeR 0x45#8 rd ra rb 0 0
  | .ptinrect rd ra rb => encodeR 0x46#8 rd ra rb 0 0
  | .rcset rd ra rb rc re => encodeR 0x50#8 rd ra rb rc re
  | .rcseto rd ra rb rc re => encodeR 0x51#8 rd ra rb rc re
  | .rcwidth rd ra => encodeR 0x52#8 rd ra 0 0 0
  | .rcheight rd ra => encodeR 0x53#8 rd ra 0 0 0
  | .rcsetpos rd ra rb => encodeR 0x54#8 rd ra rb 0 0
  | .rcsetsize rd ra rb => encodeR 0x55#8 rd ra rb 0 0
  | .rcmove rd ra rb => encodeR 0x56#8 rd ra rb 0 0
  | .rcinfl rd ra rb => encodeR 0x57#8 rd ra rb 0 0
  | .rcinflr rd ra rb => encodeR 0x58#8 rd ra rb 0 0
  | .rcnorm rd ra => encodeR 0x59#8 rd ra 0 0 0
  | .vset rd ra rb rc => encodeR 0x60#8 rd ra rb rc 0
  | .vadd rd ra rb => encodeR 0x61#8 rd ra rb 0 0
  | .vsub rd ra rb => encodeR 0x62#8 rd ra rb 0 0
  | .vmul rd ra rb => encodeR 0x63#8 rd ra rb 0 0
  | .vscale rd ra rb => encodeR 0x64#8 rd ra rb 0 0
  | .vdot rd ra rb => encodeR 0x65#8 rd ra rb 0 0
  | .vcross rd ra rb => encodeR 0x66#8 rd ra rb 0 0

/-! ## Bytes -/

/-- The word of four bytes, the first at the lowest address, byte 0 the least significant (20_memory.md R61);
`none` for any other number of bytes. -/
def wordOfBytes : List Byte → Option Word
  | [b0, b1, b2, b3] => some (b3 ++ b2 ++ b1 ++ b0)
  | _ => none

/-- The bytes of a word, least significant first (20_memory.md R61). -/
def bytesOfWord (w : Word) : List Byte :=
  [w.extractLsb' 0 8, w.extractLsb' 8 8, w.extractLsb' 16 8, w.extractLsb' 24 8]

/-- The decoder over bytes: a command is exactly four of them (R80). -/
def decodeBytes (bs : List Byte) : Option Instr :=
  match wordOfBytes bs with
  | none => none
  | some w =>
    match decode w with
    | .ok i => some i
    | .error _ => none

/-- The command word for the instruction whose lowest `nbits` bits are those of `w` and whose others are 0. -/
def tableWord (nbits w : Nat) : Word := .ofNat 32 (w % 2 ^ nbits)

/-- What the decoder reads from an instruction whose bits are `w`, bit 0 the least significant (R8), laid out as
the four bytes of its one word. -/
def decodeTableWord (nbits w : Nat) : Option Instr := decodeBytes (bytesOfWord (tableWord nbits w))

end Sys2Proof
end

