-- ==== Sys2Proof/Machine/State.lean ====
section
/-! DEFINITION. The state of the block as plain data, the host's actions that await it, the reasons a step can
stop, and the state after reset (10_state.md). -/

namespace Sys2Proof.Machine

/-- The cause of the pending fault, `STATUS.CAUSE` (10_state.md R26, 60_exceptions.md R220). -/
inductive Cause where
  /-- Code 0: no fault is pending. -/
  | none
  /-- Code 1 (R221). -/
  | illegalCommand
  /-- Code 2 (R222). -/
  | divideByZero
  /-- Code 3 (R223). -/
  | lutDomain
  /-- Code 4 (R224). -/
  | lutIndex
  deriving DecidableEq, Repr

/-- A word location of the register window (10_state.md R30). -/
inductive WindowLoc where
  /-- `REG<i>` at offset `4*i`. -/
  | reg (i : Reg)
  /-- `CMD` at offset `0x40`. -/
  | cmd
  /-- `STATUS` at offset `0x44`. -/
  | status
  /-- `FAULTCMD` at offset `0x48`. -/
  | faultCmd
  deriving DecidableEq, Repr

/-- An action of the host on the block (10_state.md R31 to R36, 00_scope.md R10). -/
inductive HostAction where
  /-- A read of a window location: HostReadReg, HostReadStatus, HostReadFaultCmd, and the read of `CMD`. -/
  | read (loc : WindowLoc)
  /-- A write to a window location: HostWriteReg, HostWriteCmd, HostClearFault, and the ignored writes. -/
  | write (loc : WindowLoc) (v : Word)
  /-- HostReset. -/
  | reset
  /-- `MemRead(addr, n)`: a bus read of `n` bytes at a byte offset of the window. -/
  | memRead (addr n : Nat)
  /-- `MemWrite(addr, n, v)`: a bus write of the given bytes, the first at offset `addr`. -/
  | memWrite (addr : Nat) (bytes : List Byte)
  deriving DecidableEq, Repr

/-- The machine. The first four fields are the block's architectural state; the last three are the model's own. -/
structure State where
  /-- `x[0]` to `x[15]` (R20). -/
  regs : Vector Word 16
  /-- `STATUS.FAULT` (R26). -/
  fault : Bool
  /-- `STATUS.CAUSE` (R26). -/
  cause : Cause
  /-- `FAULTCMD` (R27). -/
  faultCmd : Word
  /-- The open parameter `RESET_GPR` (00_scope.md R7): what HostReset leaves in the registers. Never changed.
  Assumption log 1. -/
  resetGpr : Vector Word 16
  /-- The host's actions still to come, the next one first. Assumption log 2. -/
  script : List HostAction
  /-- The words that host reads have returned, the latest first. Assumption log 6. -/
  returned : List Word
  deriving DecidableEq, Repr

/-- Reasons to stop with a fault. There are none: every fault of the block is a sticky fault after which the block
goes on (60_exceptions.md R226, 93_implementation_defined.md: no behaviour has the treatment `stuck`), so in the
model each of them is a next state. -/
inductive Fault where
  deriving DecidableEq, Repr

/-- Reasons for which a step has no meaning. -/
inductive Refusal where
  /-- Raised by `exec` for an instruction that has no meaning in the model yet; safe. -/
  | notModelled (mnemonic : String)
  /-- Raised by a host access that is not an aligned 32-bit access, which the spec says a model refuses
  (20_memory.md R60, U8); safe: no such access is given a result. -/
  | unsupportedAccess (addr n : Nat)
  /-- Raised by a host access at offset `0x4C` or above, which the spec says a model refuses
  (10_state.md R30, U9); safe: no such access is given a result. -/
  | outsideWindow (addr : Nat)
  deriving DecidableEq, Repr

/-- What a step or a meaning answers. -/
abbrev Result := Host.Outcome State Fault Refusal

/-- The value the model names for every register at reset, where the spec leaves `RESET_GPR` open
(10_state.md R40). DESIGN CHOICE, unsafe: assumption log 1. -/
def resetGprChoice : Vector Word 16 := .replicate 16 0

/-- The state after reset with the parameter `RESET_GPR` given (10_state.md R40, 70_reset_and_hazards.md R260). -/
def State.resetWith (gpr : Vector Word 16) : State where
  regs := gpr
  fault := false
  cause := .none
  faultCmd := 0
  resetGpr := gpr
  script := []
  returned := []

/-- The machine right after reset (10_state.md R40). No host action is pending. -/
def State.reset : State := State.resetWith resetGprChoice

end Sys2Proof.Machine
end

