-- ==== Sys2Proof/Machine/Ops.lean ====
section
/-! DEFINITION. The named operations over the block's state: the only ways a register, the fault record or the
host-side record is read or changed. Taking a fault is `State.raise`; leaving it is `State.clearFault`. -/

namespace Sys2Proof.Machine

/-- `x[r]` (00_scope.md R10). -/
def State.reg (s : State) (r : Reg) : Word := s.regs[r]

/-- `sx[r]`: the register read as signed (00_scope.md R10). -/
def State.sx (s : State) (r : Reg) : Int := s32 (s.reg r)

/-- `ux[r]`: the register read as unsigned (00_scope.md R10). -/
def State.ux (s : State) (r : Reg) : Nat := u32 (s.reg r)

/-- `x[r] <- v` (00_scope.md R10). No register is hardwired (10_state.md R20). -/
def State.write (s : State) (r : Reg) (v : Word) : State := { s with regs := s.regs.set r v }

/-- Write the patterns to consecutive registers, the first to `r` (00_scope.md R11). -/
def State.writeGroup (s : State) (r : Reg) : List Word → State
  | [] => s
  | v :: vs => (s.write r v).writeGroup (r + 1) vs

/-- Fault entry (60_exceptions.md R226): the fault, its cause and the command word are recorded, and nothing else
changes. -/
def State.raise (s : State) (c : Cause) (w : Word) : State :=
  { s with fault := true, cause := c, faultCmd := w }

/-- Leaving the fault state (10_state.md R35, 60_exceptions.md R229): nothing was saved, so nothing is restored. -/
def State.clearFault (s : State) : State :=
  { s with fault := false, cause := .none, faultCmd := 0 }

/-- HostReset: every piece of the block's state at its reset value (10_state.md R36, R40). The host's own record,
what it still will do and what it has read, is not the block's state. -/
def State.resetBlock (s : State) : State := { s.clearFault with regs := s.resetGpr }

/-- A read returns `v` to the host; nothing in the block changes (10_state.md R32, R34). -/
def State.returnWord (s : State) (v : Word) : State := { s with returned := v :: s.returned }

end Sys2Proof.Machine
end

