-- ==== Sys2Proof/Machine/Operands.lean ====
section
/-! DEFINITION. The operand forms: a register, and the groups that hold a Point, a Vector and a Rect
(00_scope.md R11). A group's components are read as signed integers, and written as patterns. -/

namespace Sys2Proof.Machine

/-- A Point, or a pair of two quantities (43_point.md R160, 44_rect.md R180). -/
structure Point where
  x : Int
  y : Int
  deriving DecidableEq, Repr

/-- A Vector's three stored components, in representation units (45_vector.md R200). -/
structure Vec where
  x : Int
  y : Int
  z : Int
  deriving DecidableEq, Repr

/-- A Rect's four edges (44_rect.md R180). -/
structure Rect where
  left : Int
  top : Int
  right : Int
  bottom : Int
  deriving DecidableEq, Repr

/-- `PT(n)` = `(x[n], x[n+1])` (00_scope.md R11). -/
def State.point (s : State) (n : Reg) : Point := ⟨s.sx n, s.sx (n + 1)⟩

/-- `VEC(n)` = `(x[n], x[n+1], x[n+2])` (00_scope.md R11). -/
def State.vec (s : State) (n : Reg) : Vec := ⟨s.sx n, s.sx (n + 1), s.sx (n + 2)⟩

/-- `RECT(n)` = `(x[n], x[n+1], x[n+2], x[n+3])` (00_scope.md R11). -/
def State.rect (s : State) (n : Reg) : Rect := ⟨s.sx n, s.sx (n + 1), s.sx (n + 2), s.sx (n + 3)⟩

/-- Write a Point: each component is `wrap32` of the exact integer (43_point.md R160). -/
def State.writePoint (s : State) (n : Reg) (p : Point) : State :=
  s.writeGroup n [wrap32 p.x, wrap32 p.y]

/-- Write a Vector: each component is `wrap32` of the exact integer (45_vector.md R200). -/
def State.writeVec (s : State) (n : Reg) (v : Vec) : State :=
  s.writeGroup n [wrap32 v.x, wrap32 v.y, wrap32 v.z]

/-- Write a Rect: each field is `wrap32` of the exact integer (44_rect.md R180). -/
def State.writeRect (s : State) (n : Reg) (r : Rect) : State :=
  s.writeGroup n [wrap32 r.left, wrap32 r.top, wrap32 r.right, wrap32 r.bottom]

/-- The command `i` raises the fault `c`: fault entry with its own command word (60_exceptions.md R226). The word
is the encoding of `i`, which for a decoded command is the word that was written (assumption log 9). -/
def State.raiseBy (s : State) (c : Cause) (i : Instr) : Result := .next (s.raise c (encode i))

/-- The result `r` of a command with group operands, if its groups lie inside the register file; else
IllegalCommand (30_encoding.md R88). The decoder lets no other command through (assumption log 9). -/
def State.ifLegal (s : State) (i : Instr) (r : Result) : Result :=
  if i.wellFormed then r else s.raiseBy .illegalCommand i

end Sys2Proof.Machine
end

