-- ==== Sys2Proof/Machine/FixedPoint.lean ====
section
/-! DEFINITION. The FixedPoint family (40_fixedpoint.md): conversions, add, subtract, the narrow and the widened
multiply and divide, and the multiply-shift. Registers hold representation units, the value times 256 (R110). -/

namespace Sys2Proof.Machine

/-- `FROMINT rd, ra` (R111). -/
def execFromint (rd ra : Reg) (s : State) : Result :=
  .next (s.write rd (wrap32 (s.sx ra * 256)))

/-- `TOUINT rd, ra` (R112): the arithmetic shift, 90_conflicts.md C1. -/
def execTouint (rd ra : Reg) (s : State) : Result :=
  .next (s.write rd (wrap32 (asr (s.sx ra) 8)))

/-- `TOFRAC rd, ra` (R113): the low 8 bits are kept, 90_conflicts.md C2. -/
def execTofrac (rd ra : Reg) (s : State) : Result :=
  .next (s.write rd (s.reg ra &&& 0x000000FF))

/-- `TOINT rd, ra` (R114). -/
def execToint (rd ra : Reg) (s : State) : Result :=
  .next (s.write rd (wrap32 (tdiv (s.sx ra) 256)))

/-- `ADD rd, ra, rb` (R115). -/
def execAdd (rd ra rb : Reg) (s : State) : Result :=
  .next (s.write rd (wrap32 (s.sx ra + s.sx rb)))

/-- `SUB rd, ra, rb` (R116). -/
def execSub (rd ra rb : Reg) (s : State) : Result :=
  .next (s.write rd (wrap32 (s.sx ra - s.sx rb)))

/-- The narrow FixedPoint product (R117, and `fxmul` of 45_vector.md R200): the product is kept to 32 bits, read as
signed, and shifted right arithmetically by 8. -/
def fxmul (a b : Int) : Int :=
  let p32 := s32 (wrap32 (a * b))
  s32 (wrap32 (asr p32 8))

/-- `MUL rd, ra, rb` (R117), the narrow path. -/
def execMul (rd ra rb : Reg) (s : State) : Result :=
  .next (s.write rd (wrap32 (fxmul (s.sx ra) (s.sx rb))))

/-- The multiply-shift on the exact 64-bit product (R118, R121). -/
def mulShift (a b : Int) (n : Nat) : Word := wrap32 (asr (a * b) n)

/-- `MUL64 rd, ra, rb` (R118), the widened path. -/
def execMul64 (rd ra rb : Reg) (s : State) : Result :=
  .next (s.write rd (mulShift (s.sx ra) (s.sx rb) 8))

/-- `DIV rd, ra, rb` (R119): the scaled dividend is kept to 32 bits; a zero divisor raises DivideByZero (R222). -/
def execDiv (rd ra rb : Reg) (s : State) : Result :=
  if s.sx rb = 0 then s.raiseBy .divideByZero (.div rd ra rb)
  else
    let n32 := s32 (wrap32 (s.sx ra * 256))
    .next (s.write rd (wrap32 (tdiv n32 (s.sx rb))))

/-- `DIV64 rd, ra, rb` (R120): the scaled dividend is exact; a zero divisor raises DivideByZero (R222). -/
def execDiv64 (rd ra rb : Reg) (s : State) : Result :=
  if s.sx rb = 0 then s.raiseBy .divideByZero (.div64 rd ra rb)
  else .next (s.write rd (wrap32 (tdiv (s.sx ra * 256) (s.sx rb))))

/-- `RECIMUL rd, ra, rb, #imm5` (R121). -/
def execRecimul (rd ra rb : Reg) (imm : Imm5) (s : State) : Result :=
  .next (s.write rd (mulShift (s.sx ra) (s.sx rb) imm.val))

end Sys2Proof.Machine
end

