-- ==== Sys2Proof/Machine/Tables.lean ====
section
/-! DEFINITION. The two read-only tables, literally as 20_memory.md R53 and R55 print them. They are constants of
the block: valid from reset, changed by nothing (R51). -/

namespace Sys2Proof.Machine

/-- Rows of R53, from entry 0 on. -/
def sinRows0 : List Int :=
  [0, 50, 101, 151, 201, 251, 301, 351, 401, 451, 501, 551, 601, 651, 700, 750,
   799, 848, 897, 946, 995, 1044, 1092, 1141, 1189, 1237, 1285, 1332, 1380, 1427, 1474, 1521,
   1567, 1614, 1660, 1706, 1751, 1797, 1842, 1886, 1931, 1975, 2019, 2062, 2106, 2149, 2191, 2234,
   2276, 2317, 2359, 2399, 2440, 2480, 2520, 2559, 2598, 2637, 2675, 2713, 2751, 2788, 2824, 2861,
   2896, 2932, 2967, 3001, 3035, 3068, 3102, 3134, 3166, 3198, 3229, 3260, 3290, 3320, 3349, 3378,
   3406, 3433, 3461, 3487, 3513, 3539, 3564, 3588, 3612, 3636, 3659, 3681, 3703, 3724, 3745, 3765]

/-- Rows of R53, from entry 96 on. -/
def sinRows1 : List Int :=
  [3784, 3803, 3822, 3839, 3857, 3873, 3889, 3905, 3920, 3934, 3948, 3961, 3973, 3985, 3996, 4007,
   4017, 4027, 4036, 4044, 4052, 4059, 4065, 4071, 4076, 4081, 4085, 4088, 4091, 4093, 4095, 4096,
   4096, 4096, 4095, 4093, 4091, 4088, 4085, 4081, 4076, 4071, 4065, 4059, 4052, 4044, 4036, 4027,
   4017, 4007, 3996, 3985, 3973, 3961, 3948, 3934, 3920, 3905, 3889, 3873, 3857, 3839, 3822, 3803,
   3784, 3765, 3745, 3724, 3703, 3681, 3659, 3636, 3612, 3588, 3564, 3539, 3513, 3487, 3461, 3433,
   3406, 3378, 3349, 3320, 3290, 3260, 3229, 3198, 3166, 3134, 3102, 3068, 3035, 3001, 2967, 2932]

/-- Rows of R53, from entry 192 on. -/
def sinRows2 : List Int :=
  [2896, 2861, 2824, 2788, 2751, 2713, 2675, 2637, 2598, 2559, 2520, 2480, 2440, 2399, 2359, 2317,
   2276, 2234, 2191, 2149, 2106, 2062, 2019, 1975, 1931, 1886, 1842, 1797, 1751, 1706, 1660, 1614,
   1567, 1521, 1474, 1427, 1380, 1332, 1285, 1237, 1189, 1141, 1092, 1044, 995, 946, 897, 848,
   799, 750, 700, 651, 601, 551, 501, 451, 401, 351, 301, 251, 201, 151, 101, 50,
   0, -50, -101, -151, -201, -251, -301, -351, -401, -451, -501, -551, -601, -651, -700, -750,
   -799, -848, -897, -946, -995, -1044, -1092, -1141, -1189, -1237, -1285, -1332, -1380, -1427, -1474, -1521]

/-- Rows of R53, from entry 288 on. -/
def sinRows3 : List Int :=
  [-1567, -1614, -1660, -1706, -1751, -1797, -1842, -1886, -1931, -1975, -2019, -2062, -2106, -2149, -2191, -2234,
   -2276, -2317, -2359, -2399, -2440, -2480, -2520, -2559, -2598, -2637, -2675, -2713, -2751, -2788, -2824, -2861,
   -2896, -2932, -2967, -3001, -3035, -3068, -3102, -3134, -3166, -3198, -3229, -3260, -3290, -3320, -3349, -3378,
   -3406, -3433, -3461, -3487, -3513, -3539, -3564, -3588, -3612, -3636, -3659, -3681, -3703, -3724, -3745, -3765,
   -3784, -3803, -3822, -3839, -3857, -3873, -3889, -3905, -3920, -3934, -3948, -3961, -3973, -3985, -3996, -4007,
   -4017, -4027, -4036, -4044, -4052, -4059, -4065, -4071, -4076, -4081, -4085, -4088, -4091, -4093, -4095, -4096]

/-- Rows of R53, from entry 384 on. -/
def sinRows4 : List Int :=
  [-4096, -4096, -4095, -4093, -4091, -4088, -4085, -4081, -4076, -4071, -4065, -4059, -4052, -4044, -4036, -4027,
   -4017, -4007, -3996, -3985, -3973, -3961, -3948, -3934, -3920, -3905, -3889, -3873, -3857, -3839, -3822, -3803,
   -3784, -3765, -3745, -3724, -3703, -3681, -3659, -3636, -3612, -3588, -3564, -3539, -3513, -3487, -3461, -3433,
   -3406, -3378, -3349, -3320, -3290, -3260, -3229, -3198, -3166, -3134, -3102, -3068, -3035, -3001, -2967, -2932,
   -2896, -2861, -2824, -2788, -2751, -2713, -2675, -2637, -2598, -2559, -2520, -2480, -2440, -2399, -2359, -2317,
   -2276, -2234, -2191, -2149, -2106, -2062, -2019, -1975, -1931, -1886, -1842, -1797, -1751, -1706, -1660, -1614]

/-- Rows of R53, from entry 480 on. -/
def sinRows5 : List Int :=
  [-1567, -1521, -1474, -1427, -1380, -1332, -1285, -1237, -1189, -1141, -1092, -1044, -995, -946, -897, -848,
   -799, -750, -700, -651, -601, -551, -501, -451, -401, -351, -301, -251, -201, -151, -101, -50,
   0, 50]

/-- The entries of `SINLUT` as the decimal numbers of R53. -/
def sinEntries : List Int := sinRows0 ++ sinRows1 ++ sinRows2 ++ sinRows3 ++ sinRows4 ++ sinRows5

/-- Rows of R55, from entry 1 on. -/
def divRows0 : List Nat :=
  [65536, 32768, 21845, 16384, 13107, 10923, 9362, 8192, 7282, 6554, 5958, 5461, 5041, 4681, 4369, 4096,
   3855, 3641, 3449, 3277, 3121, 2979, 2849, 2731, 2621, 2521, 2427, 2341, 2260, 2185, 2114, 2048,
   1986, 1928, 1872, 1820, 1771, 1725, 1680, 1638, 1598, 1560, 1524, 1489, 1456, 1425, 1394, 1365,
   1337, 1311, 1285, 1260, 1237, 1214, 1192, 1170, 1150, 1130, 1111, 1092, 1074, 1057, 1040, 1024,
   1008, 993, 978, 964, 950, 936, 923, 910, 898, 886, 874, 862, 851, 840, 830, 819,
   809, 799, 790, 780, 771, 762, 753, 745, 736, 728, 720, 712, 705, 697, 690, 683]

/-- Rows of R55, from entry 97 on. -/
def divRows1 : List Nat :=
  [676, 669, 662, 655, 649, 643, 636, 630, 624, 618, 612, 607, 601, 596, 590, 585,
   580, 575, 570, 565, 560, 555, 551, 546, 542, 537, 533, 529, 524, 520, 516, 512,
   508, 504, 500, 496, 493, 489, 485, 482, 478, 475, 471, 468, 465, 462, 458, 455,
   452, 449, 446, 443, 440, 437, 434, 431, 428, 426, 423, 420, 417, 415, 412, 410,
   407, 405, 402, 400, 397, 395, 392, 390, 388, 386, 383, 381, 379, 377, 374, 372,
   370, 368, 366, 364, 362, 360, 358, 356, 354, 352, 350, 349, 347, 345, 343, 341]

/-- Rows of R55, from entry 193 on. -/
def divRows2 : List Nat :=
  [340, 338, 336, 334, 333, 331, 329, 328, 326, 324, 323, 321, 320, 318, 317, 315,
   314, 312, 311, 309, 308, 306, 305, 303, 302, 301, 299, 298, 297, 295, 294, 293,
   291, 290, 289, 287, 286, 285, 284, 282, 281, 280, 279, 278, 277, 275, 274, 273,
   272, 271, 270, 269, 267, 266, 265, 264, 263, 262, 261, 260, 259, 258, 257, 256]

/-- The entries 1 to 256 of `DIVLUT` as the decimal numbers of R55. -/
def divEntries : List Nat := divRows0 ++ divRows1 ++ divRows2

/-- `SINLUT`: 514 signed 16-bit entries (10_state.md R38). -/
def sinRom : List Half := sinEntries.map (BitVec.ofInt 16)

/-- `DIVLUT`: 257 unsigned 32-bit entries, entry 0 the open sentinel (10_state.md R39, 20_memory.md R56). -/
def divRom : List Word := Config.divLut0 :: divEntries.map (BitVec.ofNat 32)

/-- `SINLUT[i]`, the signed value (00_scope.md R10, 20_memory.md R58). Every use is at an index below 514; the
value 0 beyond the table is reached by no command (assumption log 8). -/
def sinLut (i : Nat) : Int := s16 (sinRom.getD i 0)

/-- The 32-bit entry `i` of `DIVLUT`. Every use is at an index from 1 to 256; the value 0 beyond the table is
reached by no command (assumption log 8). -/
def divLutWord (i : Nat) : Word := divRom.getD i 0

/-- `DIVLUT[i]` read as a signed integer, as the Interpolator reads it (20_memory.md R58, 41_interpolator.md R142). -/
def divLutSigned (i : Nat) : Int := s32 (divLutWord i)

end Sys2Proof.Machine
end

