-- ==== Sys2Proof/Machine/Interpolator.lean ====
section
/-! DEFINITION. The Interpolator family (41_interpolator.md): linear interpolation over the two tables. -/

namespace Sys2Proof.Machine

/-- `lerp(T, x, s)` (R140): the shift applies to the product only (90_conflicts.md C4), the product is exact. -/
def lerp (T : Nat → Int) (x s : Nat) : Int :=
  let i := x / 2 ^ s
  let f := x - i * 2 ^ s
  let a := T i
  let b := T (i + 1)
  a + asr ((b - a) * f) s

/-- `LERP16 rd, ra, #imm5` (R141): over `SINLUT`; an integer index above 512 raises LutIndex (R224). -/
def execLerp16 (rd ra : Reg) (imm : Imm5) (s : State) : Result :=
  if lsr (s.reg ra) imm.val > 512 then s.raiseBy .lutIndex (.lerp16 rd ra imm)
  else .next (s.write rd (wrap32 (lerp sinLut (s.ux ra) imm.val)))

/-- `LERP32 rd, ra, #imm5` (R142): over `DIVLUT`; an integer index outside 1 to 255 raises LutIndex (R224). -/
def execLerp32 (rd ra : Reg) (imm : Imm5) (s : State) : Result :=
  if lsr (s.reg ra) imm.val < 1 ∨ lsr (s.reg ra) imm.val > 255 then s.raiseBy .lutIndex (.lerp32 rd ra imm)
  else .next (s.write rd (wrap32 (lerp divLutSigned (s.ux ra) imm.val)))

end Sys2Proof.Machine
end

