-- ==== Sys2Proof/Machine/LutEngine.lean ====
section
/-! DEFINITION. The LutEngine family (42_lutengine.md): sine, cosine and reciprocal by direct lookup. -/

namespace Sys2Proof.Machine

/-- The sine sample of an angle shifted by `k` samples (R150, R151): the index is masked with `0x1FF`, which keeps
its value modulo 512. -/
def sinSample (theta : Word) (k : Nat) : Int := sinLut ((lsr theta 7 + k) &&& 0x1FF)

/-- `SIN rd, ra` (R150): the floor sample, 90_conflicts.md C5. -/
def execSin (rd ra : Reg) (s : State) : Result :=
  .next (s.write rd (wrap32 (sinSample (s.reg ra) 0)))

/-- `COS rd, ra` (R151): the same lookup a quarter turn, 128 samples, further. -/
def execCos (rd ra : Reg) (s : State) : Result :=
  .next (s.write rd (wrap32 (sinSample (s.reg ra) 128)))

/-- `RECIP rd, ra` (R152): an argument outside 1 to 255 raises LutDomain (R223), 90_conflicts.md C11. -/
def execRecip (rd ra : Reg) (s : State) : Result :=
  if s.ux ra < 1 ∨ s.ux ra > 255 then s.raiseBy .lutDomain (.recip rd ra)
  else .next (s.write rd (divLutWord (s.ux ra)))

end Sys2Proof.Machine
end

