-- ==== Sys2Proof/Machine/Point.lean ====
section
/-! DEFINITION. The Point family (43_point.md): plain 32-bit integers, no shift by 8 (R160). -/

namespace Sys2Proof.Machine

/-- `PTSET rd, ra, rb` (R161): the patterns are copied unchanged. -/
def execPtset (rd ra rb : Reg) (s : State) : Result :=
  s.ifLegal (.ptset rd ra rb) <| .next (s.writeGroup rd [s.reg ra, s.reg rb])

/-- `PTADD rd, ra, rb` (R162); the y component by 90_conflicts.md C8 (R169). -/
def execPtadd (rd ra rb : Reg) (s : State) : Result :=
  let a := s.point ra
  let b := s.point rb
  s.ifLegal (.ptadd rd ra rb) <| .next (s.writePoint rd ⟨a.x + b.x, a.y + b.y⟩)

/-- `PTSUB rd, ra, rb` (R163); the y component by 90_conflicts.md C8 (R169). -/
def execPtsub (rd ra rb : Reg) (s : State) : Result :=
  let a := s.point ra
  let b := s.point rb
  s.ifLegal (.ptsub rd ra rb) <| .next (s.writePoint rd ⟨a.x - b.x, a.y - b.y⟩)

/-- `PTSCALE rd, ra, rb` (R164): the scalar is an integer, not FixedPoint. -/
def execPtscale (rd ra rb : Reg) (s : State) : Result :=
  let a := s.point ra
  let k := s.sx rb
  s.ifLegal (.ptscale rd ra rb) <| .next (s.writePoint rd ⟨a.x * k, a.y * k⟩)

/-- `PTCROSS rd, ra, rb` (R165). -/
def execPtcross (rd ra rb : Reg) (s : State) : Result :=
  let a := s.point ra
  let b := s.point rb
  s.ifLegal (.ptcross rd ra rb) <| .next (s.write rd (wrap32 (a.x * b.y - a.y * b.x)))

/-- `PTDOT rd, ra, rb` (R166). -/
def execPtdot (rd ra rb : Reg) (s : State) : Result :=
  let a := s.point ra
  let b := s.point rb
  s.ifLegal (.ptdot rd ra rb) <| .next (s.write rd (wrap32 (a.x * b.x + a.y * b.y)))

/-- Half-open membership with signed compares; the rect is used as it stands (R167). -/
def Rect.contains (r : Rect) (p : Point) : Bool :=
  r.left ≤ p.x && p.x < r.right && r.top ≤ p.y && p.y < r.bottom

/-- `PTINRECT rd, ra, rb` (R167). -/
def execPtinrect (rd ra rb : Reg) (s : State) : Result :=
  s.ifLegal (.ptinrect rd ra rb) <| .next (s.write rd (boolWord ((s.rect rb).contains (s.point ra))))

end Sys2Proof.Machine
end

