-- ==== Sys2Proof/Machine/Rect.lean ====
section
/-! DEFINITION. The Rect family (44_rect.md): half-open boxes of plain 32-bit integers. Only `RCNORM` orders the
edges (R180). A pair operand (a position, a size, a delta) has the form of a Point (R180). -/

namespace Sys2Proof.Machine

/-- `RCSET rd, ra, rb, rc, re` (R181): the patterns are copied unchanged. -/
def execRcset (rd ra rb rc re : Reg) (s : State) : Result :=
  s.ifLegal (.rcset rd ra rb rc re) <|
    .next (s.writeGroup rd [s.reg ra, s.reg rb, s.reg rc, s.reg re])

/-- `RCSETO rd, ra, rb, rc, re` (R182): origin and size. -/
def execRcseto (rd ra rb rc re : Reg) (s : State) : Result :=
  let ox := s.sx ra
  let oy := s.sx rb
  let w := s.sx rc
  let h := s.sx re
  s.ifLegal (.rcseto rd ra rb rc re) <| .next (s.writeRect rd ⟨ox, oy, ox + w, oy + h⟩)

/-- `RCWIDTH rd, ra` (R183). -/
def execRcwidth (rd ra : Reg) (s : State) : Result :=
  let r := s.rect ra
  s.ifLegal (.rcwidth rd ra) <| .next (s.write rd (wrap32 (r.right - r.left)))

/-- `RCHEIGHT rd, ra` (R184). -/
def execRcheight (rd ra : Reg) (s : State) : Result :=
  let r := s.rect ra
  s.ifLegal (.rcheight rd ra) <| .next (s.write rd (wrap32 (r.bottom - r.top)))

/-- `RCSETPOS rd, ra, rb` (R185): the top-left corner becomes the point, width and height are kept. -/
def execRcsetpos (rd ra rb : Reg) (s : State) : Result :=
  let r := s.rect ra
  let p := s.point rb
  s.ifLegal (.rcsetpos rd ra rb) <|
    .next (s.writeRect rd ⟨p.x, p.y, r.right + (p.x - r.left), r.bottom + (p.y - r.top)⟩)

/-- `RCSETSIZE rd, ra, rb` (R186): the top-left corner is kept. -/
def execRcsetsize (rd ra rb : Reg) (s : State) : Result :=
  let r := s.rect ra
  let d := s.point rb
  s.ifLegal (.rcsetsize rd ra rb) <|
    .next (s.writeRect rd ⟨r.left, r.top, r.left + d.x, r.top + d.y⟩)

/-- `RCMOVE rd, ra, rb` (R187). -/
def execRcmove (rd ra rb : Reg) (s : State) : Result :=
  let r := s.rect ra
  let d := s.point rb
  s.ifLegal (.rcmove rd ra rb) <|
    .next (s.writeRect rd ⟨r.left + d.x, r.top + d.y, r.right + d.x, r.bottom + d.y⟩)

/-- `RCINFL rd, ra, rb` (R188): each side moves outward. -/
def execRcinfl (rd ra rb : Reg) (s : State) : Result :=
  let r := s.rect ra
  let d := s.point rb
  s.ifLegal (.rcinfl rd ra rb) <|
    .next (s.writeRect rd ⟨r.left - d.x, r.top - d.y, r.right + d.x, r.bottom + d.y⟩)

/-- `RCINFLR rd, ra, rb` (R189): each field of the second rect is added to the same field of the first. -/
def execRcinflr (rd ra rb : Reg) (s : State) : Result :=
  let r := s.rect ra
  let q := s.rect rb
  s.ifLegal (.rcinflr rd ra rb) <|
    .next (s.writeRect rd ⟨r.left + q.left, r.top + q.top, r.right + q.right, r.bottom + q.bottom⟩)

/-- Two edges of one axis, swapped when the first is above the second, a strict signed compare (R190). -/
def orderEdges (lo hi : Int) : Int × Int := if lo > hi then (hi, lo) else (lo, hi)

/-- `RCNORM rd, ra` (R190): each axis independently. -/
def execRcnorm (rd ra : Reg) (s : State) : Result :=
  let r := s.rect ra
  let h := orderEdges r.left r.right
  let v := orderEdges r.top r.bottom
  s.ifLegal (.rcnorm rd ra) <| .next (s.writeRect rd ⟨h.1, v.1, h.2, v.2⟩)

end Sys2Proof.Machine
end

