-- ==== Sys2Proof/Machine/Vector.lean ====
section
/-! DEFINITION. The Vector family (45_vector.md): three FixedPoint components; every product is the narrow `fxmul`
(R200). -/

namespace Sys2Proof.Machine

/-- `VSET rd, ra, rb, rc` (R201): the patterns are copied unchanged. -/
def execVset (rd ra rb rc : Reg) (s : State) : Result :=
  s.ifLegal (.vset rd ra rb rc) <| .next (s.writeGroup rd [s.reg ra, s.reg rb, s.reg rc])

/-- `VADD rd, ra, rb` (R202). -/
def execVadd (rd ra rb : Reg) (s : State) : Result :=
  let a := s.vec ra
  let b := s.vec rb
  s.ifLegal (.vadd rd ra rb) <| .next (s.writeVec rd ⟨a.x + b.x, a.y + b.y, a.z + b.z⟩)

/-- `VSUB rd, ra, rb` (R203). -/
def execVsub (rd ra rb : Reg) (s : State) : Result :=
  let a := s.vec ra
  let b := s.vec rb
  s.ifLegal (.vsub rd ra rb) <| .next (s.writeVec rd ⟨a.x - b.x, a.y - b.y, a.z - b.z⟩)

/-- `VMUL rd, ra, rb` (R204): component by component. -/
def execVmul (rd ra rb : Reg) (s : State) : Result :=
  let a := s.vec ra
  let b := s.vec rb
  s.ifLegal (.vmul rd ra rb) <| .next (s.writeVec rd ⟨fxmul a.x b.x, fxmul a.y b.y, fxmul a.z b.z⟩)

/-- `VSCALE rd, ra, rb` (R205): the scalar is a FixedPoint value. -/
def execVscale (rd ra rb : Reg) (s : State) : Result :=
  let a := s.vec ra
  let k := s.sx rb
  s.ifLegal (.vscale rd ra rb) <| .next (s.writeVec rd ⟨fxmul a.x k, fxmul a.y k, fxmul a.z k⟩)

/-- `VDOT rd, ra, rb` (R206): each product is shifted before the sum. -/
def execVdot (rd ra rb : Reg) (s : State) : Result :=
  let a := s.vec ra
  let b := s.vec rb
  s.ifLegal (.vdot rd ra rb) <|
    .next (s.write rd (wrap32 (fxmul a.x b.x + fxmul a.y b.y + fxmul a.z b.z)))

/-- `VCROSS rd, ra, rb` (R207): the right-handed cross product, each product shifted before the subtraction. -/
def execVcross (rd ra rb : Reg) (s : State) : Result :=
  let a := s.vec ra
  let b := s.vec rb
  s.ifLegal (.vcross rd ra rb) <|
    .next (s.writeVec rd
      ⟨fxmul a.y b.z - fxmul a.z b.y, fxmul a.z b.x - fxmul a.x b.z, fxmul a.x b.y - fxmul a.y b.x⟩)

end Sys2Proof.Machine
end

