-- ==== Sys2Proof/Machine/Dispatch.lean ====
section
/-! DEFINITION. exec: one arm per command, each a direct call of its meaning. -/

namespace Sys2Proof.Machine

/-- What a command does, once the block executes it (10_state.md R33). -/
def exec (i : Instr) (s : State) : Host.Outcome State Fault Refusal :=
  match i with
  | .fromint rd ra => Sys2Proof.Machine.execFromint rd ra s
  | .touint rd ra => Sys2Proof.Machine.execTouint rd ra s
  | .tofrac rd ra => Sys2Proof.Machine.execTofrac rd ra s
  | .toint rd ra => Sys2Proof.Machine.execToint rd ra s
  | .add rd ra rb => Sys2Proof.Machine.execAdd rd ra rb s
  | .sub rd ra rb => Sys2Proof.Machine.execSub rd ra rb s
  | .mul rd ra rb => Sys2Proof.Machine.execMul rd ra rb s
  | .mul64 rd ra rb => Sys2Proof.Machine.execMul64 rd ra rb s
  | .div rd ra rb => Sys2Proof.Machine.execDiv rd ra rb s
  | .div64 rd ra rb => Sys2Proof.Machine.execDiv64 rd ra rb s
  | .recimul rd ra rb imm => Sys2Proof.Machine.execRecimul rd ra rb imm s
  | .lerp16 rd ra imm => Sys2Proof.Machine.execLerp16 rd ra imm s
  | .lerp32 rd ra imm => Sys2Proof.Machine.execLerp32 rd ra imm s
  | .sin rd ra => Sys2Proof.Machine.execSin rd ra s
  | .cos rd ra => Sys2Proof.Machine.execCos rd ra s
  | .recip rd ra => Sys2Proof.Machine.execRecip rd ra s
  | .ptset rd ra rb => Sys2Proof.Machine.execPtset rd ra rb s
  | .ptadd rd ra rb => Sys2Proof.Machine.execPtadd rd ra rb s
  | .ptsub rd ra rb => Sys2Proof.Machine.execPtsub rd ra rb s
  | .ptscale rd ra rb => Sys2Proof.Machine.execPtscale rd ra rb s
  | .ptcross rd ra rb => Sys2Proof.Machine.execPtcross rd ra rb s
  | .ptdot rd ra rb => Sys2Proof.Machine.execPtdot rd ra rb s
  | .ptinrect rd ra rb => Sys2Proof.Machine.execPtinrect rd ra rb s
  | .rcset rd ra rb rc re => Sys2Proof.Machine.execRcset rd ra rb rc re s
  | .rcseto rd ra rb rc re => Sys2Proof.Machine.execRcseto rd ra rb rc re s
  | .rcwidth rd ra => Sys2Proof.Machine.execRcwidth rd ra s
  | .rcheight rd ra => Sys2Proof.Machine.execRcheight rd ra s
  | .rcsetpos rd ra rb => Sys2Proof.Machine.execRcsetpos rd ra rb s
  | .rcsetsize rd ra rb => Sys2Proof.Machine.execRcsetsize rd ra rb s
  | .rcmove rd ra rb => Sys2Proof.Machine.execRcmove rd ra rb s
  | .rcinfl rd ra rb => Sys2Proof.Machine.execRcinfl rd ra rb s
  | .rcinflr rd ra rb => Sys2Proof.Machine.execRcinflr rd ra rb s
  | .rcnorm rd ra => Sys2Proof.Machine.execRcnorm rd ra s
  | .vset rd ra rb rc => Sys2Proof.Machine.execVset rd ra rb rc s
  | .vadd rd ra rb => Sys2Proof.Machine.execVadd rd ra rb s
  | .vsub rd ra rb => Sys2Proof.Machine.execVsub rd ra rb s
  | .vmul rd ra rb => Sys2Proof.Machine.execVmul rd ra rb s
  | .vscale rd ra rb => Sys2Proof.Machine.execVscale rd ra rb s
  | .vdot rd ra rb => Sys2Proof.Machine.execVdot rd ra rb s
  | .vcross rd ra rb => Sys2Proof.Machine.execVcross rd ra rb s

end Sys2Proof.Machine
end

