-- ==== Sys2Proof/Machine/Flags.lean ====
section
/-! DEFINITION. The block has no condition codes (10_state.md R25); what stands here is the STATUS register, whose
one bit and one field are the trap state (R26). -/

namespace Sys2Proof.Machine

/-- The code of a cause in `STATUS[7:4]` (60_exceptions.md R220). Codes 5 to 15 are never produced. -/
def Cause.code : Cause → BitVec 4
  | .none => 0
  | .illegalCommand => 1
  | .divideByZero => 2
  | .lutDomain => 3
  | .lutIndex => 4

/-- `STATUS` as the host reads it (10_state.md R26): FAULT in bit 0, CAUSE in bits 7:4, every other bit 0. -/
def State.statusWord (s : State) : Word :=
  0#24 ++ s.cause.code ++ 0#3 ++ BitVec.ofBool s.fault

/-- A host write to `STATUS` (10_state.md R26, R35): bit 0 written as 1 clears the fault, all else is ignored. -/
def State.writeStatus (s : State) (v : Word) : State :=
  if v.getLsbD 0 then s.clearFault else s

end Sys2Proof.Machine
end

