-- ==== Sys2Proof/Machine/HostActions.lean ====
section
/-! DEFINITION. What each host action does to the block (10_state.md R30 to R36). -/

namespace Sys2Proof.Machine

/-! ## The register window -/

/-- The location that an access of `n` bytes at byte offset `addr` reaches (10_state.md R30). Only aligned 32-bit
accesses are defined (20_memory.md R60), and only the 19 offsets of the window exist. -/
def locate (addr n : Nat) : Except Refusal WindowLoc :=
  if n ≠ 4 ∨ addr % 4 ≠ 0 then .error (.unsupportedAccess addr n)
  else if addr < 0x40 then .ok (.reg (.ofNat 16 (addr / 4)))
  else if addr = 0x40 then .ok .cmd
  else if addr = 0x44 then .ok .status
  else if addr = 0x48 then .ok .faultCmd
  else .error (.outsideWindow addr)

/-- The byte offset of a location (10_state.md R30). -/
def WindowLoc.offset : WindowLoc → Nat
  | .reg i => 4 * i.val
  | .cmd => 0x40
  | .status => 0x44
  | .faultCmd => 0x48

/-- The offset in the window of an address on the host's bus, `none` below the window (00_scope.md R7,
10_state.md R30). -/
def busOffset (addr : Nat) : Option Nat :=
  if Config.windowBase ≤ addr then some (addr - Config.windowBase) else none

/-- What the host reads at a location (10_state.md R30; `CMD` reads 0, R28). -/
def State.readLoc (s : State) : WindowLoc → Word
  | .reg i => s.reg i
  | .cmd => 0
  | .status => s.statusWord
  | .faultCmd => s.faultCmd

/-- HostWriteCmd (10_state.md R33): while a fault is pending the word is discarded (60_exceptions.md R228); a word
that is no legal command raises IllegalCommand (R221); any other is executed. -/
def State.writeCmd (s : State) (w : Word) : Result :=
  if s.fault then .next s
  else
    match decode w with
    | .error _ => .next (s.raise .illegalCommand w)
    | .ok i => exec i s

/-- What a host write of `v` to a location does (10_state.md R30; writes to `FAULTCMD` are ignored, R27). -/
def State.writeLoc (s : State) (loc : WindowLoc) (v : Word) : Result :=
  match loc with
  | .reg i => .next (s.write i v)
  | .cmd => s.writeCmd v
  | .status => .next (s.writeStatus v)
  | .faultCmd => .next s

/-- A bus read (00_scope.md R10, 20_memory.md R60): the word of the location is returned to the host. -/
def State.busRead (s : State) (addr n : Nat) : Result :=
  match locate addr n with
  | .ok loc => .next (s.returnWord (s.readLoc loc))
  | .error r => .refused r

/-- A bus write of the given bytes, the first at offset `addr`, the least significant first (20_memory.md R60, R61). -/
def State.busWrite (s : State) (addr : Nat) (bytes : List Byte) : Result :=
  match locate addr bytes.length, wordOfBytes bytes with
  | .ok loc, some v => s.writeLoc loc v
  | .error r, _ => .refused r
  | .ok _, none => .refused (.unsupportedAccess addr bytes.length)

/-- One host action, to its completion (20_memory.md R62). -/
def act (a : HostAction) (s : State) : Result :=
  match a with
  | .read loc => .next (s.returnWord (s.readLoc loc))
  | .write loc v => s.writeLoc loc v
  | .reset => .next s.resetBlock
  | .memRead addr n => s.busRead addr n
  | .memWrite addr bytes => s.busWrite addr bytes

/-- Let the host perform the next action of its script. With none left the block idles: it never halts
(70_reset_and_hazards.md R262, 60_exceptions.md R241). -/
def stepScript (s : State) : Result :=
  match s.script with
  | [] => .next s
  | a :: rest => act a { s with script := rest }

/-! ## The actions by the spec's names -/

/-- `HostWriteReg(i, v)` (R31). -/
def hostWriteReg (i : Reg) (v : Word) : HostAction := .write (.reg i) v
/-- `HostReadReg(i)` (R32). -/
def hostReadReg (i : Reg) : HostAction := .read (.reg i)
/-- `HostWriteCmd(w)` (R33). -/
def hostWriteCmd (w : Word) : HostAction := .write .cmd w
/-- `HostReadStatus()` (R34). -/
def hostReadStatus : HostAction := .read .status
/-- `HostReadFaultCmd()` (R34). -/
def hostReadFaultCmd : HostAction := .read .faultCmd
/-- `HostClearFault()` (R35): a write of 1 to `STATUS`. -/
def hostClearFault : HostAction := .write .status 1
/-- `HostReset()` (R36). -/
def hostReset : HostAction := .reset

/-- The host is about to write the command word of the given bits to `CMD`, with no fault pending, so that the block
executes it (10_state.md R33). Everything else is as in `s`. Assumption log 2. -/
def State.awaitCommand (s : State) (w : Word) : State :=
  { s.clearFault with script := hostWriteCmd w :: s.script }

end Sys2Proof.Machine
end

