-- ==== Sys2Proof/Machine/Step.lean ====
section
/-! DEFINITION. One step of the machine: one host action, to its completion (10_state.md R24, 20_memory.md R62). -/

namespace Sys2Proof.Machine

/-- One step: the host's next action. A command is executed when it is the write of its word to `CMD` (R33). -/
def step (s : State) : Host.Outcome State Fault Refusal := stepScript s

/-- The state from which the very next step writes to `CMD` the command word with the given bits, and executes it. -/
def State.withFetchWord (s : State) (nbits w : Nat) : State := s.awaitCommand (tableWord nbits w)

end Sys2Proof.Machine
end

