-- ==== Sys2Proof/Machine/HostSide.lean ====
section
/-! DEFINITION. The functions the spec gives to the host and the assembler, not to the block (40_fixedpoint.md R122,
R124, R125). No step evaluates them. -/

namespace Sys2Proof.Machine

/-- Truncation of a rational toward zero (R124). -/
def truncRat (q : Rat) : Int := q.num.tdiv q.den

/-- `fromFloat(f)` on exact rationals (R124); `none` where the spec does not specify it (U6, assumption log 10). -/
def fromFloat (f : Rat) : Option Word :=
  let t := truncRat (f * 256)
  if -2 ^ 31 ≤ t ∧ t < 2 ^ 31 then some (wrap32 t) else none

/-- `toFloat(fx)` as an exact rational (R125), the real value of a FixedPoint pattern (10_state.md R23). -/
def toFloat (fx : Word) : Rat := (s32 fx : Rat) / 256

/-- `RECIPK(a, fp)` (R122); `none` for a use the assembler rejects: `a` not positive, `fp` above 31, or a value that
does not fit a signed 32-bit register. -/
def recipK (a : Int) (fp : Nat) : Option Int :=
  if 1 ≤ a ∧ fp ≤ 31 then
    let m := (2 ^ fp + a - 1) / a
    if m < 2 ^ 31 then some m else none
  else none

end Sys2Proof.Machine
end

