-- ==== Sys2Proof/Machine/Assembler.lean ====
section
/-! DEFINITION. The assembler and the host-script lines (30_encoding.md R89 to R92): text to host actions. It stands
on the host's side; no step evaluates it. -/

namespace Sys2Proof.Machine

/-! ## Tokens -/

/-- A token of a line. -/
inductive Token where
  | word (text : String)
  | comma
  | lparen
  | rparen
  | hash
  deriving DecidableEq, Repr

/-- The word collected so far, its characters in reverse. -/
def flushWord (acc : List Char) : List Token :=
  if acc.isEmpty then [] else [.word (String.ofList acc.reverse)]

/-- The tokens of a line; a `;` starts a comment to its end (R89). -/
def tokenize (acc : List Char) : List Char → List Token
  | [] => flushWord acc
  | c :: cs =>
    if c = ';' then flushWord acc
    else if c = ',' then flushWord acc ++ .comma :: tokenize [] cs
    else if c = '(' then flushWord acc ++ .lparen :: tokenize [] cs
    else if c = ')' then flushWord acc ++ .rparen :: tokenize [] cs
    else if c = '#' then flushWord acc ++ .hash :: tokenize [] cs
    else if c.isWhitespace then flushWord acc ++ tokenize [] cs
    else tokenize (c :: acc) cs

/-! ## Numbers and registers -/

/-- The sixteen digits of a hexadecimal number, as the spec prints them, in the order of their values. -/
def hexDigits : List Char := "0123456789ABCDEF".toList

/-- The value of a digit is its place in `hexDigits`; a small letter is read as its capital one (DESIGN CHOICE,
assumption log 13). -/
def digitValue (c : Char) : Option Nat := hexDigits.idxOf? c.toUpper

/-- The number of a digit string in a base, above the number `n` already read. -/
def readDigits (base n : Nat) : List Char → Option Nat
  | [] => some n
  | c :: cs =>
    match digitValue c with
    | some d => if d < base then readDigits base (base * n + d) cs else none
    | none => none

/-- A number of at least one digit. -/
def readNat (base : Nat) (cs : List Char) : Option Nat :=
  if cs.isEmpty then none else readDigits base 0 cs

/-- A signed decimal integer. -/
def readInt : List Char → Option Int
  | '-' :: cs => (readNat 10 cs).map fun n => -(n : Int)
  | cs => (readNat 10 cs).map fun n => (n : Int)

/-- A hexadecimal number, written `0x...` (00_scope.md R8). -/
def readHexNat : List Char → Option Nat
  | '0' :: 'x' :: cs => readNat 16 cs
  | _ => none

/-- A 32-bit pattern in hexadecimal. -/
def readHex (cs : List Char) : Option Word :=
  match readHexNat cs with
  | some n => if n < 2 ^ 32 then some (.ofNat 32 n) else none
  | none => none

/-- A number without a sign, in either of the two forms of 00_scope.md R8: hexadecimal `0x...`, else decimal. -/
def readUnsigned (cs : List Char) : Option Nat :=
  match readHexNat cs with
  | some n => some n
  | none => readNat 10 cs

/-- A register's name, `r0` to `r15` (R89). -/
def regName (r : Reg) : String := "r" ++ Nat.repr r.val

/-- The register of a name. -/
def readReg (w : String) : Option Reg := (List.finRange 16).find? fun r => regName r == w

/-- A 32-bit constant of a script line (R92): a hexadecimal pattern, a signed decimal `v` meaning `wrap32(v)`, or a
use of `RECIPK` (R91). R91 gives no form for the two arguments: they are read in either form of 00_scope.md R8, without
a sign, since `RECIPK` is defined for no negative one (DESIGN CHOICE, assumption log 13). -/
def readConstant : List Token → Option Word
  | [.word w] =>
    match readHex w.toList with
    | some v => some v
    | none => (readInt w.toList).map wrap32
  | [.word "RECIPK", .lparen, .word a, .comma, .word fp, .rparen] =>
    match readUnsigned a.toList, readUnsigned fp.toList with
    | some a, some fp => (recipK a fp).map wrap32
    | _, _ => none
  | _ => none

/-! ## Commands -/

/-- An operand of a command line. -/
inductive AsmOperand where
  | reg (r : Reg)
  | imm (n : Imm5)
  deriving DecidableEq, Repr

/-- The immediate `#n`, `n` decimal 0 to 31 (R89). -/
def readImm (w : String) : Option Imm5 :=
  match readNat 10 w.toList with
  | some n => if h : n < 32 then some ⟨n, h⟩ else none
  | none => none

/-- Operands separated by commas, registers first, the immediate last (R89). -/
def readOperands : List Token → Option (List AsmOperand)
  | [.word w] => (readReg w).map fun r => [.reg r]
  | [.hash, .word w] => (readImm w).map fun n => [.imm n]
  | .word w :: .comma :: ts =>
    match readReg w, readOperands ts with
    | some r, some os => some (.reg r :: os)
    | _, _ => none
  | _ => none

/-- A command of two register operands. -/
def ops2 (f : Reg → Reg → Instr) : List AsmOperand → Option Instr
  | [.reg rd, .reg ra] => some (f rd ra)
  | _ => none

/-- A command of two register operands and an immediate. -/
def ops2i (f : Reg → Reg → Imm5 → Instr) : List AsmOperand → Option Instr
  | [.reg rd, .reg ra, .imm n] => some (f rd ra n)
  | _ => none

/-- A command of three register operands. -/
def ops3 (f : Reg → Reg → Reg → Instr) : List AsmOperand → Option Instr
  | [.reg rd, .reg ra, .reg rb] => some (f rd ra rb)
  | _ => none

/-- A command of three register operands and an immediate. -/
def ops3i (f : Reg → Reg → Reg → Imm5 → Instr) : List AsmOperand → Option Instr
  | [.reg rd, .reg ra, .reg rb, .imm n] => some (f rd ra rb n)
  | _ => none

/-- A command of four register operands. -/
def ops4 (f : Reg → Reg → Reg → Reg → Instr) : List AsmOperand → Option Instr
  | [.reg rd, .reg ra, .reg rb, .reg rc] => some (f rd ra rb rc)
  | _ => none

/-- A command of five register operands. -/
def ops5 (f : Reg → Reg → Reg → Reg → Reg → Instr) : List AsmOperand → Option Instr
  | [.reg rd, .reg ra, .reg rb, .reg rc, .reg re] => some (f rd ra rb rc re)
  | _ => none

/-- `PTADDEQ rd, rb` (R90, 43_point.md R168). -/
def ptaddeq (rd rb : Reg) : Instr := .ptadd rd rd rb
/-- `PTSUBEQ rd, rb` (R90, 43_point.md R168). -/
def ptsubeq (rd rb : Reg) : Instr := .ptsub rd rd rb
/-- `PTSCALEEQ rd, rb` (R90, 43_point.md R168). -/
def ptscaleeq (rd rb : Reg) : Instr := .ptscale rd rd rb
/-- `VADDEQ rd, rb` (R90, 45_vector.md R208). -/
def vaddeq (rd rb : Reg) : Instr := .vadd rd rd rb
/-- `VSUBEQ rd, rb` (R90, 45_vector.md R208). -/
def vsubeq (rd rb : Reg) : Instr := .vsub rd rd rb
/-- `VMULEQ rd, rb` (R90, 45_vector.md R208). -/
def vmuleq (rd rb : Reg) : Instr := .vmul rd rd rb
/-- `VSCALEEQ rd, rb` (R90, 45_vector.md R208). -/
def vscaleeq (rd rb : Reg) : Instr := .vscale rd rd rb

/-- The command of a mnemonic (R85) or a pseudo-instruction (R90) with its operands. -/
def ofMnemonic (m : String) : List AsmOperand → Option Instr :=
  match m with
  | "FROMINT" => ops2 .fromint
  | "TOUINT" => ops2 .touint
  | "TOFRAC" => ops2 .tofrac
  | "TOINT" => ops2 .toint
  | "ADD" => ops3 .add
  | "SUB" => ops3 .sub
  | "MUL" => ops3 .mul
  | "MUL64" => ops3 .mul64
  | "DIV" => ops3 .div
  | "DIV64" => ops3 .div64
  | "RECIMUL" => ops3i .recimul
  | "LERP16" => ops2i .lerp16
  | "LERP32" => ops2i .lerp32
  | "SIN" => ops2 .sin
  | "COS" => ops2 .cos
  | "RECIP" => ops2 .recip
  | "PTSET" => ops3 .ptset
  | "PTADD" => ops3 .ptadd
  | "PTSUB" => ops3 .ptsub
  | "PTSCALE" => ops3 .ptscale
  | "PTCROSS" => ops3 .ptcross
  | "PTDOT" => ops3 .ptdot
  | "PTINRECT" => ops3 .ptinrect
  | "RCSET" => ops5 .rcset
  | "RCSETO" => ops5 .rcseto
  | "RCWIDTH" => ops2 .rcwidth
  | "RCHEIGHT" => ops2 .rcheight
  | "RCSETPOS" => ops3 .rcsetpos
  | "RCSETSIZE" => ops3 .rcsetsize
  | "RCMOVE" => ops3 .rcmove
  | "RCINFL" => ops3 .rcinfl
  | "RCINFLR" => ops3 .rcinflr
  | "RCNORM" => ops2 .rcnorm
  | "VSET" => ops4 .vset
  | "VADD" => ops3 .vadd
  | "VSUB" => ops3 .vsub
  | "VMUL" => ops3 .vmul
  | "VSCALE" => ops3 .vscale
  | "VDOT" => ops3 .vdot
  | "VCROSS" => ops3 .vcross
  | "PTADDEQ" => ops2 ptaddeq
  | "PTSUBEQ" => ops2 ptsubeq
  | "PTSCALEEQ" => ops2 ptscaleeq
  | "VADDEQ" => ops2 vaddeq
  | "VSUBEQ" => ops2 vsubeq
  | "VMULEQ" => ops2 vmuleq
  | "VSCALEEQ" => ops2 vscaleeq
  | _ => fun _ => none

/-- A command line. A command whose group runs past `r15` is no command and can only be written by `cmd` (R92). -/
def readCommand : List Token → Option Instr
  | .word m :: ts =>
    match readOperands ts with
    | none => none
    | some os =>
      match ofMnemonic m os with
      | none => none
      | some i => if i.wellFormed then some i else none
  | _ => none

/-! ## Script lines -/

/-- The host actions of one line of a host script (R92): none for an empty or comment line, else one. -/
def readLine (line : String) : Option (List HostAction) :=
  match tokenize [] line.toList with
  | [] => some []
  | .word "wreg" :: .word r :: .comma :: ts =>
    match readReg r, readConstant ts with
    | some r, some v => some [hostWriteReg r v]
    | _, _ => none
  | [.word "cmd", .word w] => (readHex w.toList).map fun v => [hostWriteCmd v]
  | [.word "rreg", .word r] => (readReg r).map fun r => [hostReadReg r]
  | [.word "rstat"] => some [hostReadStatus]
  | [.word "rfcmd"] => some [hostReadFaultCmd]
  | [.word "clrf"] => some [hostClearFault]
  | [.word "reset"] => some [hostReset]
  | ts => (readCommand ts).map fun i => [hostWriteCmd (encode i)]

/-- The host actions of a script, in order (R92). -/
def readScript : List String → Option (List HostAction)
  | [] => some []
  | line :: lines =>
    match readLine line, readScript lines with
    | some a, some rest => some (a ++ rest)
    | _, _ => none

/-! ## Writing a command out -/

/-- The immediate of a command, if it has one (30_encoding.md R86). -/
def immediate : Instr → Option Imm5
  | .recimul _ _ _ imm => some imm
  | .lerp16 _ _ imm => some imm
  | .lerp32 _ _ imm => some imm
  | _ => none

/-- A command as the assembler writes it (R89). -/
def asmText (i : Instr) : String :=
  i.mnemonic ++ " " ++
    ", ".intercalate (i.operands.map (fun o => regName o.2) ++
      (immediate i).toList.map (fun n => "#" ++ Nat.repr n.val))

end Sys2Proof.Machine
end

