-- ==== Sys2Proof/Safety.lean ====
section
/-! DEFINITION. The terms statements use: what a command leaves alone, what fault entry is, when the fault record
says what the spec says, and the opcode map of 30_encoding.md R85 as a table of its own. -/

namespace Sys2Proof.Machine

/-- From `s` to `t` no register outside `rs` changed, and nothing else of the state changed at all: not the fault
record, not the host's side. The two tables are constants, so there is no memory that could have changed. -/
def State.OnlyWrites (s t : State) (rs : List Reg) : Prop :=
  (∀ r, r ∉ rs → t.reg r = s.reg r) ∧ t.fault = s.fault ∧ t.cause = s.cause ∧ t.faultCmd = s.faultCmd ∧
    t.resetGpr = s.resetGpr ∧ t.script = s.script ∧ t.returned = s.returned

/-- From `s` to `t` the block entered the fault `c` for the word `w` (60_exceptions.md R226), no general register
and nothing of the host's side having changed. -/
def State.EntersFault (s t : State) (c : Cause) (w : Word) : Prop :=
  t.fault = true ∧ t.cause = c ∧ t.faultCmd = w ∧ t.statusWord = 0#24 ++ c.code ++ 0#3 ++ 1#1 ∧
    (∀ r, t.reg r = s.reg r) ∧ t.resetGpr = s.resetGpr ∧ t.script = s.script ∧ t.returned = s.returned

/-- The command answers a next state in which at most the registers `rs` changed, and of which `P` holds. -/
def Completes (i : Instr) (s : State) (rs : List Reg) (P : State → Prop) : Prop :=
  ∃ t, exec i s = .next t ∧ s.OnlyWrites t rs ∧ P t

/-- The command answers a next state that is the entry into the fault `c` for its own command word. -/
def FaultsWith (i : Instr) (s : State) (c : Cause) : Prop :=
  ∃ t, exec i s = .next t ∧ s.EntersFault t c (encode i)

/-- The state once the host's next action has been taken from its script. -/
def State.withScript (s : State) (rest : List HostAction) : State := { s with script := rest }

/-- Unless `p`, the word with the fields of `i` is no legal command: written to `CMD` with no fault pending it enters
IllegalCommand, and no register is written (30_encoding.md R88, 60_exceptions.md R221). -/
def IllegalUnless (i : Instr) (p : Prop) : Prop :=
  ¬p → ∀ (s : State) (rest : List HostAction), s.script = hostWriteCmd (encode i) :: rest → s.fault = false →
    ∃ t, step s = .next t ∧ (s.withScript rest).EntersFault t .illegalCommand (encode i)

/-- The cause and the recorded word belong together (60_exceptions.md R220): an illegal word for IllegalCommand, and
for each other cause a command that can raise it. -/
def Cause.fitsWord (c : Cause) (w : Word) : Bool :=
  match c, decode w with
  | .illegalCommand, .error _ => true
  | .divideByZero, .ok (.div _ _ _) => true
  | .divideByZero, .ok (.div64 _ _ _) => true
  | .lutDomain, .ok (.recip _ _) => true
  | .lutIndex, .ok (.lerp16 _ _ _) => true
  | .lutIndex, .ok (.lerp32 _ _ _) => true
  | _, _ => false

/-- The fault record is sound: with no fault pending CAUSE and FAULTCMD are 0 (10_state.md R26, R27, R35), and with
one pending they name a cause and a word that can have raised it (60_exceptions.md R220). -/
def State.faultRecordSound (s : State) : Bool :=
  if s.fault then s.cause.fitsWord s.faultCmd else s.cause == .none && s.faultCmd == 0

end Sys2Proof.Machine

namespace Sys2Proof

/-- A row of the opcode map: match, mask, and each register field by its kind and lowest bit. -/
structure OpcodeRow where
  mnemonic : String
  matchBits : Word
  mask : Word
  fields : List (Kind × Nat)
  deriving DecidableEq, Repr

/-- 30_encoding.md R84: the word's fixed bits are the row's, and no group runs past `r15`. -/
def OpcodeRow.admits (row : OpcodeRow) (w : Word) : Bool :=
  w &&& row.mask = row.matchBits &&
    row.fields.all fun f => (w >>> f.2 &&& 0xF).toNat + f.1.size - 1 ≤ 15

/-- The opcode map of 30_encoding.md R85, row by row. -/
def opcodeMap : List OpcodeRow :=
  [⟨"FROMINT", 0x10000000, 0xFF00FFFF, [(.reg, 20), (.reg, 16)]⟩,
   ⟨"TOUINT", 0x11000000, 0xFF00FFFF, [(.reg, 20), (.reg, 16)]⟩,
   ⟨"TOFRAC", 0x12000000, 0xFF00FFFF, [(.reg, 20), (.reg, 16)]⟩,
   ⟨"TOINT", 0x13000000, 0xFF00FFFF, [(.reg, 20), (.reg, 16)]⟩,
   ⟨"ADD", 0x14000000, 0xFF000FFF, [(.reg, 20), (.reg, 16), (.reg, 12)]⟩,
   ⟨"SUB", 0x15000000, 0xFF000FFF, [(.reg, 20), (.reg, 16), (.reg, 12)]⟩,
   ⟨"MUL", 0x16000000, 0xFF000FFF, [(.reg, 20), (.reg, 16), (.reg, 12)]⟩,
   ⟨"MUL64", 0x17000000, 0xFF000FFF, [(.reg, 20), (.reg, 16), (.reg, 12)]⟩,
   ⟨"DIV", 0x18000000, 0xFF000FFF, [(.reg, 20), (.reg, 16), (.reg, 12)]⟩,
   ⟨"DIV64", 0x19000000, 0xFF000FFF, [(.reg, 20), (.reg, 16), (.reg, 12)]⟩] ++
  [⟨"RECIMUL", 0x1A000000, 0xFF000FE0, [(.reg, 20), (.reg, 16), (.reg, 12)]⟩,
   ⟨"LERP16", 0x20000000, 0xFF00FFE0, [(.reg, 20), (.reg, 16)]⟩,
   ⟨"LERP32", 0x21000000, 0xFF00FFE0, [(.reg, 20), (.reg, 16)]⟩,
   ⟨"SIN", 0x30000000, 0xFF00FFFF, [(.reg, 20), (.reg, 16)]⟩,
   ⟨"COS", 0x31000000, 0xFF00FFFF, [(.reg, 20), (.reg, 16)]⟩,
   ⟨"RECIP", 0x32000000, 0xFF00FFFF, [(.reg, 20), (.reg, 16)]⟩,
   ⟨"PTSET", 0x40000000, 0xFF000FFF, [(.point, 20), (.reg, 16), (.reg, 12)]⟩,
   ⟨"PTADD", 0x41000000, 0xFF000FFF, [(.point, 20), (.point, 16), (.point, 12)]⟩,
   ⟨"PTSUB", 0x42000000, 0xFF000FFF, [(.point, 20), (.point, 16), (.point, 12)]⟩,
   ⟨"PTSCALE", 0x43000000, 0xFF000FFF, [(.point, 20), (.point, 16), (.reg, 12)]⟩] ++
  [⟨"PTCROSS", 0x44000000, 0xFF000FFF, [(.reg, 20), (.point, 16), (.point, 12)]⟩,
   ⟨"PTDOT", 0x45000000, 0xFF000FFF, [(.reg, 20), (.point, 16), (.point, 12)]⟩,
   ⟨"PTINRECT", 0x46000000, 0xFF000FFF, [(.reg, 20), (.point, 16), (.rect, 12)]⟩,
   ⟨"RCSET", 0x50000000, 0xFF00000F, [(.rect, 20), (.reg, 16), (.reg, 12), (.reg, 8), (.reg, 4)]⟩,
   ⟨"RCSETO", 0x51000000, 0xFF00000F, [(.rect, 20), (.reg, 16), (.reg, 12), (.reg, 8), (.reg, 4)]⟩,
   ⟨"RCWIDTH", 0x52000000, 0xFF00FFFF, [(.reg, 20), (.rect, 16)]⟩,
   ⟨"RCHEIGHT", 0x53000000, 0xFF00FFFF, [(.reg, 20), (.rect, 16)]⟩,
   ⟨"RCSETPOS", 0x54000000, 0xFF000FFF, [(.rect, 20), (.rect, 16), (.point, 12)]⟩,
   ⟨"RCSETSIZE", 0x55000000, 0xFF000FFF, [(.rect, 20), (.rect, 16), (.point, 12)]⟩,
   ⟨"RCMOVE", 0x56000000, 0xFF000FFF, [(.rect, 20), (.rect, 16), (.point, 12)]⟩] ++
  [⟨"RCINFL", 0x57000000, 0xFF000FFF, [(.rect, 20), (.rect, 16), (.point, 12)]⟩,
   ⟨"RCINFLR", 0x58000000, 0xFF000FFF, [(.rect, 20), (.rect, 16), (.rect, 12)]⟩,
   ⟨"RCNORM", 0x59000000, 0xFF00FFFF, [(.rect, 20), (.rect, 16)]⟩,
   ⟨"VSET", 0x60000000, 0xFF0000FF, [(.vector, 20), (.reg, 16), (.reg, 12), (.reg, 8)]⟩,
   ⟨"VADD", 0x61000000, 0xFF000FFF, [(.vector, 20), (.vector, 16), (.vector, 12)]⟩,
   ⟨"VSUB", 0x62000000, 0xFF000FFF, [(.vector, 20), (.vector, 16), (.vector, 12)]⟩,
   ⟨"VMUL", 0x63000000, 0xFF000FFF, [(.vector, 20), (.vector, 16), (.vector, 12)]⟩,
   ⟨"VSCALE", 0x64000000, 0xFF000FFF, [(.vector, 20), (.vector, 16), (.reg, 12)]⟩,
   ⟨"VDOT", 0x65000000, 0xFF000FFF, [(.reg, 20), (.vector, 16), (.vector, 12)]⟩,
   ⟨"VCROSS", 0x66000000, 0xFF000FFF, [(.vector, 20), (.vector, 16), (.vector, 12)]⟩]

end Sys2Proof
end

