-- ==== Sys2Proof/Certificates/Slice0/Obligations.lean ====
section
/-! DEFINITION. The statements for the provers. `R<n>` are the numbered rules of spec/. In the statements about a
command, `Completes i s rs P` says that the command answers a next state, that outside the registers `rs` nothing of
the state changed (no other register, no part of the fault record, nothing of the host's side; the tables are
constants, so no memory), and that `P` holds of the next state; `FaultsWith i s c` says that the command enters the
fault `c`, writing no register; `IllegalUnless i p` says that unless `p` the word with those operands is illegal. -/

open Sys2Proof Sys2Proof.Machine

/-! ## Encoding and decoding -/

/-- Decoding the word of a well-formed command gives that command back, with every operand at every value the
encoding admits (30_encoding.md sections 1 to 4). -/
def Obligations.DecodeOfEncodeIsTheCommand : Prop :=
  ∀ i : Instr, i.wellFormed = true → decode (encode i) = .ok i

/-- Every word the decoder accepts is the encoding of the command it reads, and that command is well-formed: no bit of
a legal word is ignored, and no two words mean the same command (30_encoding.md sections 1 to 4). -/
def Obligations.EncodeOfDecodeIsTheWord : Prop :=
  ∀ (w : Word) (i : Instr), decode w = .ok i → encode i = w ∧ i.wellFormed = true

/-- R85: a word encodes the command of a row of the opcode map exactly when `(w & mask) == match` and the group bounds
hold; the operands are then the values of the row's fields, and the immediate is bits 4:0. The rows stand in
`opcodeMap`, apart from the decoder. -/
def Obligations.DecoderAcceptsExactlyTheOpcodeMap : Prop :=
  (∀ (row : OpcodeRow), row ∈ opcodeMap → ∀ w : Word,
    row.admits w = true ↔ ∃ i, decode w = .ok i ∧ i.mnemonic = row.mnemonic ∧
      i.operands = row.fields.map fun f => (f.1, Fin.ofNat 16 (w.toNat / 2 ^ f.2))) ∧
    ∀ (w : Word) (rd ra rb : Reg) (imm : Imm5),
      decode w = .ok (.recimul rd ra rb imm) ∨ decode w = .ok (.lerp16 rd ra imm) ∨
        decode w = .ok (.lerp32 rd ra imm) → imm.val = w.toNat % 32

/-- R221, R226: with no fault pending, a word that no row of the opcode map admits, written to `CMD`, enters
IllegalCommand for that word; no register is written. -/
def Obligations.IllegalWordEntersIllegalCommand : Prop :=
  ∀ (s : State) (w : Word) (rest : List HostAction),
    s.script = hostWriteCmd w :: rest → s.fault = false →
    (∀ row ∈ opcodeMap, row.admits w = false) →
    ∃ t, step s = .next t ∧ (s.withScript rest).EntersFault t .illegalCommand w

/-- R87: exactly the opcode values of the listed ranges are reserved, 216 in number, and a word with one of them
raises IllegalCommand; the all-zero and the all-ones word are such words. -/
def Obligations.ReservedOpcodesRaiseIllegalCommand : Prop :=
  let reserved : BitVec 8 → Prop := fun op =>
    op.toNat ≤ 0x0F ∨ (0x1B ≤ op.toNat ∧ op.toNat ≤ 0x1F) ∨ (0x22 ≤ op.toNat ∧ op.toNat ≤ 0x2F) ∨
      (0x33 ≤ op.toNat ∧ op.toNat ≤ 0x3F) ∨ (0x47 ≤ op.toNat ∧ op.toNat ≤ 0x4F) ∨
      (0x5A ≤ op.toNat ∧ op.toNat ≤ 0x5F) ∨ 0x67 ≤ op.toNat
  (∀ w : Word, reserved (opcodeField w) ↔ decode w = .error .reservedOpcode) ∧
    (∀ op : BitVec 8, reserved op ↔ ∀ row ∈ opcodeMap, opcodeField row.matchBits ≠ op) ∧
    (∃ ops : List (BitVec 8), ops.Nodup ∧ ops.length = 216 ∧ ∀ op, op ∈ ops ↔ reserved op) ∧
    reserved (opcodeField 0x00000000) ∧ reserved (opcodeField 0xFFFFFFFF) ∧
    ∀ (s : State) (w : Word) (rest : List HostAction),
      s.script = hostWriteCmd w :: rest → s.fault = false → reserved (opcodeField w) →
      ∃ t, step s = .next t ∧ (s.withScript rest).EntersFault t .illegalCommand w

/-- 30_encoding.md section 4: a command whose group runs past `r15` never executes; the meanings themselves enter
IllegalCommand, whatever the registers hold. That the meanings check it, after the decoder has, is the model's
choice (assumption log 9). -/
def Obligations.GroupPastTheEndRaisesIllegalCommand : Prop :=
  ∀ (i : Instr) (s : State), i.wellFormed = false → FaultsWith i s .illegalCommand

/-- One word of each family, written out from 30_encoding.md section 3 (R81, R82, R85), decodes to its command. -/
def Obligations.SampleWordsDecode : Prop :=
  decode 0b00010100000100100011000000000000 = .ok (.add 1 2 3) ∧
    decode 0b00011010000100100011000000010000 = .ok (.recimul 1 2 3 16) ∧
    decode 0b00100000000100100000000000000111 = .ok (.lerp16 1 2 7) ∧
    decode 0b00110001000100100000000000000000 = .ok (.cos 1 2) ∧
    decode 0b01000110011000000010000000000000 = .ok (.ptinrect 6 0 2) ∧
    decode 0b01010000010000000001001000110000 = .ok (.rcset 4 0 1 2 3) ∧
    decode 0b01100110110001001000000000000000 = .ok (.vcross 12 4 8)

/-- 30_encoding.md section 5: the text of a well-formed command, written by R89's syntax, is assembled to the write of
its encoding to `CMD`; and the in-place pseudo-instructions stand for the command with the destination as its first
source. That text is read this way is the model's assembler. -/
def Obligations.AssemblerReadsWhatItWrites : Prop :=
  (∀ i : Instr, i.wellFormed = true → readLine (asmText i) = some [hostWriteCmd (encode i)]) ∧
    ∀ rd rb : Reg,
      ofMnemonic "PTADDEQ" [.reg rd, .reg rb] = some (.ptadd rd rd rb) ∧
      ofMnemonic "PTSUBEQ" [.reg rd, .reg rb] = some (.ptsub rd rd rb) ∧
      ofMnemonic "PTSCALEEQ" [.reg rd, .reg rb] = some (.ptscale rd rd rb) ∧
      ofMnemonic "VADDEQ" [.reg rd, .reg rb] = some (.vadd rd rd rb) ∧
      ofMnemonic "VSUBEQ" [.reg rd, .reg rb] = some (.vsub rd rd rb) ∧
      ofMnemonic "VMULEQ" [.reg rd, .reg rb] = some (.vmul rd rd rb) ∧
      ofMnemonic "VSCALEEQ" [.reg rd, .reg rb] = some (.vscale rd rd rb)

/-! ## The host's actions and the whole machine -/

/-- R33: the write of a word `w` to `CMD`. With a fault pending nothing happens; a word that is no legal command
enters IllegalCommand; a legal one is the execution of the decoded command. Around it the step only takes the action
from the host's script. -/
def Obligations.StepRunsTheDecodedCommand : Prop :=
  ∀ (s : State) (w : Word) (rest : List HostAction), s.script = hostWriteCmd w :: rest →
    (s.fault = true → step s = .next (s.withScript rest)) ∧
    (∀ e, s.fault = false → decode w = .error e →
      ∃ t, step s = .next t ∧ (s.withScript rest).EntersFault t .illegalCommand w) ∧
    (∀ i, s.fault = false → decode w = .ok i → step s = exec i (s.withScript rest))

/-- R228: while a fault is pending, a word written to `CMD` changes nothing, whatever the word; host reads and writes
of the registers still work. -/
def Obligations.PendingFaultDiscardsCommands : Prop :=
  ∀ (s : State) (rest : List HostAction), s.fault = true →
    (∀ w, s.script = hostWriteCmd w :: rest → step s = .next (s.withScript rest)) ∧
    (∀ i v, s.script = hostWriteReg i v :: rest →
      ∃ t, step s = .next t ∧ (s.withScript rest).OnlyWrites t [i] ∧ t.reg i = v) ∧
    (∀ i, s.script = hostReadReg i :: rest →
      ∃ t, step s = .next t ∧ t.returned = s.reg i :: s.returned ∧ t.script = rest ∧
        t.regs = s.regs ∧ t.fault = s.fault ∧ t.cause = s.cause ∧ t.faultCmd = s.faultCmd)

/-- R31: HostWriteReg writes the one register and changes nothing else, in every state; a read that follows returns
the value written. -/
def Obligations.HostWriteRegWritesOneRegister : Prop :=
  ∀ (s : State) (i : Reg) (v : Word) (rest : List HostAction), s.script = hostWriteReg i v :: rest →
    ∃ t, step s = .next t ∧ (s.withScript rest).OnlyWrites t [i] ∧ t.reg i = v ∧
      ∀ later, rest = hostReadReg i :: later →
        ∃ u, step t = .next u ∧ u.returned = v :: s.returned

/-- R32, R34, R28: a read of a window location returns the register, 0 for `CMD`, the STATUS word, or FAULTCMD, and
changes nothing in the block. The STATUS word has FAULT in bit 0, CAUSE in bits 7:4, every other bit 0 (R26). -/
def Obligations.HostReadsReturnTheWindowAndChangeNothing : Prop :=
  ∀ (s : State) (loc : WindowLoc) (rest : List HostAction), s.script = .read loc :: rest →
    ∃ (t : State) (v : Word), step s = .next t ∧ t = { s with script := rest, returned := v :: s.returned } ∧
      match loc with
      | .reg i => v = s.reg i
      | .cmd => v = 0
      | .faultCmd => v = s.faultCmd
      | .status => ∀ k, v.getLsbD k =
          if k = 0 then s.fault else if 4 ≤ k ∧ k < 8 then s.cause.code.getLsbD (k - 4) else false

/-- R35: a write to STATUS with bit 0 set clears FAULT, CAUSE and FAULTCMD and keeps the registers; with bit 0 clear,
or with no fault pending, the write changes nothing in the block. The last clause is for a sound fault record, the
only kind a run reaches. -/
def Obligations.StatusWriteClearsTheFault : Prop :=
  ∀ (s : State) (v : Word) (rest : List HostAction), s.script = .write .status v :: rest →
    (v.getLsbD 0 = true → ∃ t, step s = .next t ∧ t.fault = false ∧ t.cause = .none ∧ t.faultCmd = 0 ∧
      t.statusWord = 0 ∧ (∀ r, t.reg r = s.reg r) ∧ t.resetGpr = s.resetGpr ∧ t.script = rest ∧
      t.returned = s.returned) ∧
    (v.getLsbD 0 = false → step s = .next (s.withScript rest)) ∧
    (s.faultRecordSound = true → s.fault = false → step s = .next (s.withScript rest))

/-- R36, R229: HostReset leaves STATUS 0 and FAULTCMD 0, with or without a pending fault, and the registers at the
parameter `RESET_GPR`, for every value of that parameter. -/
def Obligations.HostResetRestoresTheResetState : Prop :=
  ∀ (s : State) (rest : List HostAction), s.script = hostReset :: rest →
    ∃ t, step s = .next t ∧ t.statusWord = 0 ∧ t.fault = false ∧ t.cause = .none ∧ t.faultCmd = 0 ∧
      t.regs = s.resetGpr ∧ t.resetGpr = s.resetGpr ∧ t.script = rest ∧ t.returned = s.returned

/-- R40: after reset, for every `RESET_GPR`, STATUS is 0, FAULTCMD is 0, the registers are `RESET_GPR`, and the fault
record is sound. That State.reset takes 0 for `RESET_GPR` is the model's choice (assumption log 1) and stands in no
clause. -/
def Obligations.ResetLeavesNoFault : Prop :=
  ∀ gpr : Vector Word 16,
    (State.resetWith gpr).statusWord = 0 ∧ (State.resetWith gpr).fault = false ∧
    (State.resetWith gpr).cause = .none ∧ (State.resetWith gpr).faultCmd = 0 ∧
    (∀ r : Reg, (State.resetWith gpr).reg r = gpr[r]) ∧
    (State.resetWith gpr).faultRecordSound = true ∧
    State.reset = State.resetWith State.reset.resetGpr

/-- 10_state.md section 6, 20_memory.md section 6: an aligned access of four bytes at the offset of a location is the
access of that location, the bytes of a write taken least significant first; an access of another width, at an offset
that is no multiple of 4, or at `0x4C` or above is refused. -/
def Obligations.OnlyAlignedWordsReachTheWindow : Prop :=
  (∀ (s : State) (loc : WindowLoc), s.busRead loc.offset 4 = .next (s.returnWord (s.readLoc loc))) ∧
    (∀ (s : State) (loc : WindowLoc) (v : Word), s.busWrite loc.offset (bytesOfWord v) = s.writeLoc loc v) ∧
    (∀ (s : State) (addr n : Nat), n ≠ 4 ∨ addr % 4 ≠ 0 ∨ 0x4C ≤ addr → ∃ r, s.busRead addr n = .refused r) ∧
    (∀ (s : State) (addr : Nat) (bytes : List Byte),
      bytes.length ≠ 4 ∨ addr % 4 ≠ 0 ∨ 0x4C ≤ addr → ∃ r, s.busWrite addr bytes = .refused r) ∧
    ∀ addr : Nat, addr % 4 = 0 → addr < 0x4C → ∃ loc : WindowLoc, loc.offset = addr

/-- R62: a step is one host action, whole: whatever the action, if the step answers a next state then exactly that
action has left the script, the parameter `RESET_GPR` is as it was, and at most one word has been returned; with no
action left the block idles. -/
def Obligations.StepPerformsExactlyOneHostAction : Prop :=
  (∀ (s t : State) (a : HostAction) (rest : List HostAction), s.script = a :: rest → step s = .next t →
      t.script = rest ∧ t.resetGpr = s.resetGpr ∧ (t.returned = s.returned ∨ ∃ v, t.returned = v :: s.returned)) ∧
    ∀ s : State, s.script = [] → step s = .next s

/-- R21, R227: a command that raises no fault writes no register but its destination group and changes nothing else;
a command that raises a fault writes no register and only enters the fault, with its own word. -/
def Obligations.CommandsWriteOnlyTheirDestination : Prop :=
  ∀ (i : Instr) (s : State), ∃ t, exec i s = .next t ∧
    (s.OnlyWrites t i.destRegs ∨ ∃ c, c ≠ .none ∧ s.EntersFault t c (encode i))

/-- R21, 00_scope.md R12: what a command does depends on its source registers alone: two states that agree on them
get the same values in the destination, or the same fault. -/
def Obligations.CommandsReadOnlyTheirSources : Prop :=
  ∀ (i : Instr) (s₁ s₂ t₁ t₂ : State),
    (∀ r ∈ i.sourceRegs, s₁.reg r = s₂.reg r) → s₁.fault = false → s₂.fault = false →
    exec i s₁ = .next t₁ → exec i s₂ = .next t₂ →
    t₁.fault = t₂.fault ∧
      (t₁.fault = true → t₁.cause = t₂.cause ∧ t₁.faultCmd = t₂.faultCmd) ∧
      (t₁.fault = false → ∀ r ∈ i.destRegs, t₁.reg r = t₂.reg r)

/-- R220, R225, R231: a legal command enters a fault in exactly these cases, with exactly these causes: DIV and DIV64
with divisor 0, RECIP with an argument outside 1 to 255, LERP16 with an integer index above 512, LERP32 with one
outside 1 to 255. Every other legal command, and these on every other operand, completes with no fault. -/
def Obligations.OnlyFiveCommandsCanFault : Prop :=
  ∀ (i : Instr) (s : State), i.wellFormed = true → s.fault = false →
    let zeroDivisor : Prop := ∃ rd ra rb, (i = .div rd ra rb ∨ i = .div64 rd ra rb) ∧ s.reg rb = 0
    let outOfDomain : Prop := ∃ rd ra, i = .recip rd ra ∧ ((s.reg ra).toNat < 1 ∨ 255 < (s.reg ra).toNat)
    let indexOutside : Prop := ∃ rd ra imm,
      (i = .lerp16 rd ra imm ∧ 512 < (s.reg ra).toNat / 2 ^ imm.val) ∨
      (i = .lerp32 rd ra imm ∧ ((s.reg ra).toNat / 2 ^ imm.val < 1 ∨ 255 < (s.reg ra).toNat / 2 ^ imm.val))
    (zeroDivisor → FaultsWith i s .divideByZero) ∧ (outOfDomain → FaultsWith i s .lutDomain) ∧
      (indexOutside → FaultsWith i s .lutIndex) ∧
      (¬zeroDivisor → ¬outOfDomain → ¬indexOutside → Completes i s i.destRegs fun t => t.fault = false)

/-- R26, R27, R220: every step keeps the fault record sound: with FAULT 0, CAUSE and FAULTCMD are 0; with FAULT 1,
CAUSE is one of the four codes and FAULTCMD is a word that raises it. -/
def Obligations.EveryStepKeepsTheFaultRecordSound : Prop :=
  ∀ s t : State, s.faultRecordSound = true → step s = .next t → t.faultRecordSound = true

/-- The fault record is sound in the state after reset (10_state.md section 8). -/
def Obligations.FaultRecordSoundAtReset : Prop := State.reset.faultRecordSound = true

/-! ## FixedPoint -/

/-- R111: FROMINT. -/
def Obligations.FromintScalesBy256 : Prop :=
  ∀ (rd ra : Reg) (s : State), Completes (.fromint rd ra) s [rd] fun t =>
    t.reg rd = .ofInt 32 ((s.reg ra).toInt * 256) ∧
    (-2 ^ 23 ≤ (s.reg ra).toInt → (s.reg ra).toInt < 2 ^ 23 → (t.reg rd).toInt = (s.reg ra).toInt * 256) ∧
    ((s.reg ra).toInt = 2 ^ 23 → t.reg rd = 0x80000000)

/-- R112, R113: TOUINT is the floor, TOFRAC the low 8 bits, and together they make up the operand. Where the operand
is not negative TOUINT is also the quotient rounded toward zero. -/
def Obligations.TouintAndTofracSplitTheOperand : Prop :=
  ∀ (rd ra : Reg) (s : State),
    (Completes (.touint rd ra) s [rd] fun t =>
      (t.reg rd).toInt = (s.reg ra).toInt / 256 ∧
      (0 ≤ (s.reg ra).toInt → (t.reg rd).toInt = (s.reg ra).toInt.tdiv 256)) ∧
    (Completes (.tofrac rd ra) s [rd] fun t =>
      t.reg rd = s.reg ra &&& 0x000000FF ∧ (t.reg rd).toNat = (s.reg ra).toNat % 256 ∧
      (s.reg ra).toInt = 256 * ((s.reg ra).toInt / 256) + (t.reg rd).toNat)

/-- R114: TOINT rounds toward zero, and has the equivalent form the rule gives. -/
def Obligations.TointRoundsTowardZero : Prop :=
  ∀ (rd ra : Reg) (s : State), Completes (.toint rd ra) s [rd] fun t =>
    (t.reg rd).toInt = (s.reg ra).toInt.tdiv 256 ∧
    (t.reg rd).toInt = ((s.reg ra).toInt + if (s.reg ra).toInt < 0 then 255 else 0) / 256 ∧
    (-255 ≤ (s.reg ra).toInt → (s.reg ra).toInt ≤ 255 → t.reg rd = 0)

/-- R130: the laws of the conversions, the first through two commands in a row. -/
def Obligations.ConversionLaws : Prop :=
  (∀ (ra rd rq : Reg) (s t u v : State), -2 ^ 23 ≤ (s.reg ra).toInt → (s.reg ra).toInt < 2 ^ 23 →
      exec (.fromint rd ra) s = .next t → exec (.toint rq rd) t = .next u → exec (.touint rq rd) t = .next v →
      u.reg rq = s.reg ra ∧ v.reg rq = s.reg ra) ∧
    (∀ (ra rd : Reg) (s u v : State), exec (.touint rd ra) s = .next u → exec (.toint rd ra) s = .next v →
      (u.reg rd = v.reg rd ↔ 0 ≤ (s.reg ra).toInt ∨ (256 : Int) ∣ (s.reg ra).toInt) ∧
      (u.reg rd ≠ v.reg rd → (u.reg rd).toInt = (v.reg rd).toInt - 1)) ∧
    ∀ w : Word, fromFloat (-3 / 2) = some w → ∀ (s t : State) (rd ra : Reg), s.reg ra = w →
      exec (.toint rd ra) s = .next t → (t.reg rd).toInt = -1

/-- R115, R116: ADD and SUB wrap modulo 2^32; the pattern is the same whether the operands are read as signed or
unsigned. -/
def Obligations.AddAndSubWrap : Prop :=
  ∀ (rd ra rb : Reg) (s : State),
    (Completes (.add rd ra rb) s [rd] fun t =>
      t.reg rd = .ofInt 32 ((s.reg ra).toInt + (s.reg rb).toInt) ∧
      (t.reg rd).toNat = ((s.reg ra).toNat + (s.reg rb).toNat) % 2 ^ 32) ∧
    (Completes (.sub rd ra rb) s [rd] fun t =>
      t.reg rd = .ofInt 32 ((s.reg ra).toInt - (s.reg rb).toInt) ∧
      ((t.reg rd).toNat : Int) = ((s.reg ra).toNat - (s.reg rb).toNat : Int) % 2 ^ 32 ∧
      (ra = rb → t.reg rd = 0))

/-- R117: MUL keeps the product to 32 bits, then shifts; inside the product bound it is the floor of `a*b/256`,
outside it off by a multiple of 2^24. The last clause is the 32-bit datapath. -/
def Obligations.MulIsTheNarrowProduct : Prop :=
  ∀ (rd ra rb : Reg) (s : State), Completes (.mul rd ra rb) s [rd] fun t =>
    t.reg rd = .ofInt 32 ((BitVec.ofInt 32 ((s.reg ra).toInt * (s.reg rb).toInt)).toInt / 256) ∧
    (-2 ^ 31 ≤ (s.reg ra).toInt * (s.reg rb).toInt → (s.reg ra).toInt * (s.reg rb).toInt < 2 ^ 31 →
      (t.reg rd).toInt = (s.reg ra).toInt * (s.reg rb).toInt / 256) ∧
    (2 ^ 24 : Int) ∣ (t.reg rd).toInt - (s.reg ra).toInt * (s.reg rb).toInt / 256 ∧
    t.reg rd = (s.reg ra * s.reg rb).sshiftRight 8

/-- R118: MUL64 shifts the exact product and keeps the low 32 bits; where the floor fits it is the result. The last
clause is the 64-bit datapath. -/
def Obligations.Mul64IsTheWidenedProduct : Prop :=
  ∀ (rd ra rb : Reg) (s : State), Completes (.mul64 rd ra rb) s [rd] fun t =>
    t.reg rd = .ofInt 32 ((s.reg ra).toInt * (s.reg rb).toInt / 256) ∧
    (-2 ^ 31 ≤ (s.reg ra).toInt * (s.reg rb).toInt / 256 → (s.reg ra).toInt * (s.reg rb).toInt / 256 < 2 ^ 31 →
      (t.reg rd).toInt = (s.reg ra).toInt * (s.reg rb).toInt / 256) ∧
    t.reg rd = (((s.reg ra).signExtend 64 * (s.reg rb).signExtend 64).sshiftRight 8).setWidth 32

/-- R127, R128: inside the envelope in which the narrow intermediate fits, the narrow and the widened command do the
same; outside it MUL and MUL64 can differ. Both divisions fault for a divisor 0. -/
def Obligations.WidenedPathsAgreeInsideTheEnvelope : Prop :=
  (∀ (rd ra rb : Reg) (s : State),
      -2 ^ 31 ≤ (s.reg ra).toInt * (s.reg rb).toInt → (s.reg ra).toInt * (s.reg rb).toInt < 2 ^ 31 →
      exec (.mul rd ra rb) s = exec (.mul64 rd ra rb) s) ∧
    (∀ (rd ra rb : Reg) (s : State), s.reg rb ≠ 0 →
      -2 ^ 23 ≤ (s.reg ra).toInt → (s.reg ra).toInt < 2 ^ 23 →
      exec (.div rd ra rb) s = exec (.div64 rd ra rb) s) ∧
    (∀ (rd ra rb : Reg) (s : State), s.reg rb = 0 →
      FaultsWith (.div rd ra rb) s .divideByZero ∧ FaultsWith (.div64 rd ra rb) s .divideByZero) ∧
    ∃ (s : State), exec (.mul 2 0 1) s ≠ exec (.mul64 2 0 1) s

/-- R119: DIV. With a divisor other than 0 the scaled dividend is kept to 32 bits and the quotient rounds toward
zero; with divisor 0 the command enters DivideByZero and writes nothing. -/
def Obligations.DivIsTheNarrowQuotient : Prop :=
  ∀ (rd ra rb : Reg) (s : State),
    (s.reg rb ≠ 0 → Completes (.div rd ra rb) s [rd] fun t =>
      t.reg rd = .ofInt 32 ((BitVec.ofInt 32 ((s.reg ra).toInt * 256)).toInt.tdiv (s.reg rb).toInt) ∧
      (-2 ^ 23 ≤ (s.reg ra).toInt → (s.reg ra).toInt < 2 ^ 23 →
        t.reg rd = .ofInt 32 (((s.reg ra).toInt * 256).tdiv (s.reg rb).toInt)) ∧
      (BitVec.ofInt 32 ((s.reg ra).toInt * 256) = 0x80000000 → s.reg rb = 0xFFFFFFFF → t.reg rd = 0x80000000)) ∧
    (s.reg rb = 0 → FaultsWith (.div rd ra rb) s .divideByZero)

/-- R120: DIV64, with the exact scaled dividend. -/
def Obligations.Div64IsTheWidenedQuotient : Prop :=
  ∀ (rd ra rb : Reg) (s : State),
    (s.reg rb ≠ 0 → Completes (.div64 rd ra rb) s [rd] fun t =>
      t.reg rd = .ofInt 32 (((s.reg ra).toInt * 256).tdiv (s.reg rb).toInt) ∧
      |((s.reg ra).toInt * 256).tdiv (s.reg rb).toInt| ≤ 2 ^ 39) ∧
    (s.reg rb = 0 → FaultsWith (.div64 rd ra rb) s .divideByZero)

/-- R129: at every sign combination the quotient `q` of the scaled dividend `n` by `b` rounds toward zero, and what
DIV64 writes is its low 32 bits; DIV writes the same of the narrow scaled dividend. Divisor 0 faults. -/
def Obligations.DivisionRoundsTowardZeroAtEverySign : Prop :=
  ∀ (rd ra rb : Reg) (s : State),
    let rounds : Int → Int → Word → Prop := fun n b w => ∃ q : Int,
      w = .ofInt 32 q ∧ |q| * |b| ≤ |n| ∧ |n| < (|q| + 1) * |b| ∧ 0 ≤ q * b * n ∧
      (0 ≤ n → 0 < b → q = n / b) ∧ (n < 0 → 0 < b → q = -(-n / b)) ∧
      (0 ≤ n → b < 0 → q = -(n / -b)) ∧ (n < 0 → b < 0 → q = -n / -b)
    (s.reg rb ≠ 0 →
      (Completes (.div64 rd ra rb) s [rd] fun t =>
        rounds ((s.reg ra).toInt * 256) (s.reg rb).toInt (t.reg rd)) ∧
      (Completes (.div rd ra rb) s [rd] fun t =>
        rounds (BitVec.ofInt 32 ((s.reg ra).toInt * 256)).toInt (s.reg rb).toInt (t.reg rd))) ∧
    (s.reg rb = 0 → FaultsWith (.div64 rd ra rb) s .divideByZero ∧ FaultsWith (.div rd ra rb) s .divideByZero)

/-- R121: RECIMUL shifts the exact product by `imm5`, rounding down, and keeps the low 32 bits; with `imm5` 8 it
writes what MUL64 writes, with 0 the wrapped product. -/
def Obligations.RecimulIsTheMultiplyShift : Prop :=
  ∀ (rd ra rb : Reg) (imm : Imm5) (s : State), Completes (.recimul rd ra rb imm) s [rd] fun t =>
    t.reg rd = .ofInt 32 ((s.reg ra).toInt * (s.reg rb).toInt / 2 ^ imm.val) ∧
    t.reg rd = (((s.reg ra).signExtend 64 * (s.reg rb).signExtend 64).sshiftRight imm.val).setWidth 32 ∧
    (imm.val = 8 → exec (.mul64 rd ra rb) s = .next t) ∧
    (imm.val = 0 → t.reg rd = s.reg ra * s.reg rb)

/-- 40_fixedpoint.md section 6 (R123): with the constant that RECIPK gives for the divisor `a`, RECIMUL is exactly the
quotient `floor(x/a)` for every numerator `0 <= x` with `x * e < 2^fp`, where `e = m*a - 2^fp`; with `e = 0` that is
every `x` below 2^31. -/
def Obligations.RecimulIsExactInsideTheSafetyBound : Prop :=
  ∀ (rd ra rb : Reg) (imm : Imm5) (s : State) (a m : Int),
    recipK a imm.val = some m → (s.reg rb).toInt = m → 0 ≤ (s.reg ra).toInt →
    (s.reg ra).toInt * (m * a - 2 ^ imm.val) < 2 ^ imm.val →
    Completes (.recimul rd ra rb imm) s [rd] fun t => (t.reg rd).toInt = (s.reg ra).toInt / a

/-- R122: RECIPK is the ceiling of `2^fp / a`; a divisor that is not positive and the one value that does not fit are
rejected. -/
def Obligations.RecipkIsTheCeiling : Prop :=
  (∀ (a : Int) (fp : Nat), 1 ≤ a → fp ≤ 31 → ¬(a = 1 ∧ fp = 31) →
      recipK a fp = some ⌈(2 ^ fp : ℚ) / a⌉ ∧ ⌈(2 ^ fp : ℚ) / a⌉ = (2 ^ fp + a - 1) / a) ∧
    recipK 1 31 = none ∧ ∀ (a : Int) (fp : Nat), a ≤ 0 → recipK a fp = none

/-- 40_fixedpoint.md section 2 (R124, R125): toFloat then fromFloat gives the pattern back; fromFloat rounds toward
zero, by less than one representation unit. -/
def Obligations.FloatConversionsRoundTrip : Prop :=
  (∀ w : Word, fromFloat (toFloat w) = some w) ∧
    ∀ (f : ℚ) (w : Word), fromFloat f = some w → |toFloat w| ≤ |f| ∧ |f - toFloat w| < 1 / 256 ∧ 0 ≤ f * toFloat w

/-! ## Interpolator -/

/-- R141: LERP16. -/
def Obligations.Lerp16InterpolatesTheSineTable : Prop :=
  ∀ (rd ra : Reg) (imm : Imm5) (s : State),
    let i := (s.reg ra).toNat / 2 ^ imm.val
    let f := (s.reg ra).toNat % 2 ^ imm.val
    (i ≤ 512 → Completes (.lerp16 rd ra imm) s [rd] fun t =>
      (t.reg rd).toInt = sinLut i + (sinLut (i + 1) - sinLut i) * f / 2 ^ imm.val) ∧
    (512 < i → FaultsWith (.lerp16 rd ra imm) s .lutIndex)

/-- R142: LERP32. -/
def Obligations.Lerp32InterpolatesTheReciprocalTable : Prop :=
  ∀ (rd ra : Reg) (imm : Imm5) (s : State),
    let i := (s.reg ra).toNat / 2 ^ imm.val
    let f := (s.reg ra).toNat % 2 ^ imm.val
    let entry : Nat → Int := fun k => ((divLutWord k).toNat : Int)
    (1 ≤ i → i ≤ 255 → Completes (.lerp32 rd ra imm) s [rd] fun t =>
      (t.reg rd).toInt = entry i + (entry (i + 1) - entry i) * f / 2 ^ imm.val) ∧
    (i < 1 ∨ 255 < i → FaultsWith (.lerp32 rd ra imm) s .lutIndex)

/-- R143: an interpolated value is the entry where the fraction is 0, and lies between the two entries always; no
wrap happens. -/
def Obligations.InterpolatedValueLiesBetweenTheSamples : Prop :=
  ∀ (rd ra : Reg) (imm : Imm5) (s t : State),
    let i := (s.reg ra).toNat / 2 ^ imm.val
    let between : Int → Int → Prop := fun a b =>
      ((s.reg ra).toNat % 2 ^ imm.val = 0 → (t.reg rd).toInt = a) ∧
      (a < b → a ≤ (t.reg rd).toInt ∧ (t.reg rd).toInt ≤ b - 1) ∧
      (a = b → (t.reg rd).toInt = a) ∧
      (b < a → (s.reg ra).toNat % 2 ^ imm.val ≠ 0 → b ≤ (t.reg rd).toInt ∧ (t.reg rd).toInt ≤ a - 1)
    (i ≤ 512 → exec (.lerp16 rd ra imm) s = .next t → between (sinLut i) (sinLut (i + 1))) ∧
    (1 ≤ i → i ≤ 255 → exec (.lerp32 rd ra imm) s = .next t → between (divLutSigned i) (divLutSigned (i + 1)))

/-! ## LutEngine and the tables -/

/-- R150, R151: SIN reads the sample of bits 15:7 of the angle, COS the sample 128 further modulo 512; every angle
completes. -/
def Obligations.SinAndCosReadTheMaskedSample : Prop :=
  ∀ (rd ra : Reg) (s : State),
    (Completes (.sin rd ra) s [rd] fun t => (t.reg rd).toInt = sinLut ((s.reg ra).toNat / 128 % 512)) ∧
    (Completes (.cos rd ra) s [rd] fun t => (t.reg rd).toInt = sinLut (((s.reg ra).toNat / 128 + 128) % 512))

/-- R152: RECIP writes the rounded reciprocal of an argument from 1 to 255, and enters LutDomain for any other. -/
def Obligations.RecipIsTheRoundedReciprocal : Prop :=
  ∀ (rd ra : Reg) (s : State),
    (1 ≤ (s.reg ra).toNat → (s.reg ra).toNat ≤ 255 → Completes (.recip rd ra) s [rd] fun t =>
      t.reg rd = divLutWord (s.reg ra).toNat ∧
      (t.reg rd).toNat = (131072 + (s.reg ra).toNat) / (2 * (s.reg ra).toNat)) ∧
    ((s.reg ra).toNat < 1 ∨ 255 < (s.reg ra).toNat → FaultsWith (.recip rd ra) s .lutDomain)

/-- 42_lutengine.md section 3 (R153), for every 32-bit angle, the sums modulo 2^32: SIN has the period 65536, COS is
SIN a quarter turn further, half a turn negates SIN, and the next
sample of SIN is at most 51 entry units away. -/
def Obligations.SineLawsHoldForEveryAngle : Prop :=
  ∀ (rd ra : Reg) (s s' t t' u : State), exec (.sin rd ra) s = .next t → exec (.sin rd ra) s' = .next t' →
    exec (.cos rd ra) s = .next u →
    (s'.reg ra = s.reg ra + 65536 → t'.reg rd = t.reg rd) ∧
    (s'.reg ra = s.reg ra + 16384 → t'.reg rd = u.reg rd) ∧
    (s'.reg ra = s.reg ra + 32768 → (t'.reg rd).toInt = -(t.reg rd).toInt) ∧
    (s'.reg ra = s.reg ra + 128 → |(t'.reg rd).toInt - (t.reg rd).toInt| ≤ 51)

/-- R52: every entry of the sine table is the number nearest to 4096 times the true sine of its sample angle, never a
tie; the two guard entries repeat the first two. -/
def Obligations.SineTableIsTheTrueSine : Prop :=
  (∀ i : Nat, i < 512 → |4096 * Real.sin (2 * Real.pi * i / 512) - sinLut i| ≤ 1 / 2 - 67 / 10000) ∧
    sinLut 512 = sinLut 0 ∧ sinLut 513 = sinLut 1 ∧ sinRom.length = 514 ∧
    ∀ i : Nat, i < 514 → -4096 ≤ sinLut i ∧ sinLut i ≤ 4096

/-- R54, R57: the entries 1 to 256 of the reciprocal table are `65536/i` rounded to nearest; the symmetries, bounds
and steps of both tables. -/
def Obligations.TableProperties : Prop :=
  (∀ i : Nat, 1 ≤ i → i ≤ 256 → (divLutWord i).toNat = (131072 + i) / (2 * i) ∧
      |((divLutWord i).toNat : ℚ) - 65536 / i| < 1 / 2) ∧
    (∀ i : Nat, i ≤ 255 → sinLut (i + 256) = -sinLut i) ∧
    (∀ i : Nat, i ≤ 256 → sinLut (256 - i) = sinLut i) ∧
    (∀ i : Nat, i ≤ 1 → sinLut (i + 512) = sinLut i) ∧
    (∀ i : Nat, i ≤ 513 → -4096 ≤ sinLut i ∧ sinLut i ≤ 4096) ∧
    (∀ i : Nat, i ≤ 512 → |sinLut (i + 1) - sinLut i| ≤ 51) ∧
    ∀ i : Nat, 1 ≤ i → i ≤ 255 →
      256 ≤ (divLutWord i).toNat ∧ (divLutWord i).toNat ≤ 65536 ∧ (divLutWord (i + 1)).toNat ≤ (divLutWord i).toNat

/-! ## Point, Rect, Vector -/

/-- R161, R181, R201: the set commands copy the patterns unchanged, all sources read before any destination is
written, in every overlap. -/
def Obligations.SetCommandsCopyPatterns : Prop :=
  (∀ (rd ra rb : Reg) (s : State), IllegalUnless (.ptset rd ra rb) (rd.val ≤ 14) ∧
    (rd.val ≤ 14 → Completes (.ptset rd ra rb) s [rd, rd + 1] fun t =>
      t.reg rd = s.reg ra ∧ t.reg (rd + 1) = s.reg rb)) ∧
    (∀ (rd ra rb rc : Reg) (s : State), IllegalUnless (.vset rd ra rb rc) (rd.val ≤ 13) ∧
      (rd.val ≤ 13 → Completes (.vset rd ra rb rc) s [rd, rd + 1, rd + 2] fun t =>
        t.reg rd = s.reg ra ∧ t.reg (rd + 1) = s.reg rb ∧ t.reg (rd + 2) = s.reg rc)) ∧
    ∀ (rd ra rb rc re : Reg) (s : State), IllegalUnless (.rcset rd ra rb rc re) (rd.val ≤ 12) ∧
      (rd.val ≤ 12 → Completes (.rcset rd ra rb rc re) s [rd, rd + 1, rd + 2, rd + 3] fun t =>
        t.reg rd = s.reg ra ∧ t.reg (rd + 1) = s.reg rb ∧ t.reg (rd + 2) = s.reg rc ∧ t.reg (rd + 3) = s.reg re)

/-- R162, R163: PTADD and PTSUB, component by component (y from the y components), modulo 2^32. -/
def Obligations.PointAddAndSubAreComponentwise : Prop :=
  ∀ (rd ra rb : Reg) (s : State),
    IllegalUnless (.ptadd rd ra rb) (rd.val ≤ 14 ∧ ra.val ≤ 14 ∧ rb.val ≤ 14) ∧
    IllegalUnless (.ptsub rd ra rb) (rd.val ≤ 14 ∧ ra.val ≤ 14 ∧ rb.val ≤ 14) ∧
    (rd.val ≤ 14 → ra.val ≤ 14 → rb.val ≤ 14 →
      (Completes (.ptadd rd ra rb) s [rd, rd + 1] fun t =>
        t.reg rd = .ofInt 32 ((s.reg ra).toInt + (s.reg rb).toInt) ∧
        t.reg (rd + 1) = .ofInt 32 ((s.reg (ra + 1)).toInt + (s.reg (rb + 1)).toInt)) ∧
      (Completes (.ptsub rd ra rb) s [rd, rd + 1] fun t =>
        t.reg rd = .ofInt 32 ((s.reg ra).toInt - (s.reg rb).toInt) ∧
        t.reg (rd + 1) = .ofInt 32 ((s.reg (ra + 1)).toInt - (s.reg (rb + 1)).toInt) ∧
        (ra = rb → t.reg rd = 0 ∧ t.reg (rd + 1) = 0)))

/-- R164: PTSCALE, the integer scalar read before any write; the product modulo 2^32. -/
def Obligations.PointScaleMultipliesBothComponents : Prop :=
  ∀ (rd ra rb : Reg) (s : State), IllegalUnless (.ptscale rd ra rb) (rd.val ≤ 14 ∧ ra.val ≤ 14) ∧
    (rd.val ≤ 14 → ra.val ≤ 14 → Completes (.ptscale rd ra rb) s [rd, rd + 1] fun t =>
      t.reg rd = .ofInt 32 ((s.reg ra).toInt * (s.reg rb).toInt) ∧
      t.reg (rd + 1) = .ofInt 32 ((s.reg (ra + 1)).toInt * (s.reg rb).toInt) ∧
      t.reg rd = s.reg ra * s.reg rb ∧ t.reg (rd + 1) = s.reg (ra + 1) * s.reg rb ∧
      (s.reg rb = 0 → t.reg rd = 0 ∧ t.reg (rd + 1) = 0) ∧
      (s.reg rb = 0xFFFFFFFF → t.reg rd = -s.reg ra ∧ t.reg (rd + 1) = -s.reg (ra + 1)))

/-- R165, R166: PTCROSS and PTDOT of the exact integers, and the same from the 32-bit products (wrap32 is a ring
homomorphism). -/
def Obligations.PointCrossAndDot : Prop :=
  ∀ (rd ra rb : Reg) (s : State),
    let xa := (s.reg ra).toInt
    let ya := (s.reg (ra + 1)).toInt
    let xb := (s.reg rb).toInt
    let yb := (s.reg (rb + 1)).toInt
    IllegalUnless (.ptcross rd ra rb) (ra.val ≤ 14 ∧ rb.val ≤ 14) ∧
    IllegalUnless (.ptdot rd ra rb) (ra.val ≤ 14 ∧ rb.val ≤ 14) ∧
    (ra.val ≤ 14 → rb.val ≤ 14 →
      (Completes (.ptcross rd ra rb) s [rd] fun t =>
        t.reg rd = .ofInt 32 (xa * yb - ya * xb) ∧
        t.reg rd = s.reg ra * s.reg (rb + 1) - s.reg (ra + 1) * s.reg rb) ∧
      (Completes (.ptdot rd ra rb) s [rd] fun t =>
        t.reg rd = .ofInt 32 (xa * xb + ya * yb) ∧
        t.reg rd = s.reg ra * s.reg rb + s.reg (ra + 1) * s.reg (rb + 1)))

/-- R167: PTINRECT writes 1 for a point of the half-open box and 0 for any other, by signed compares; a rect with an
empty or inverted axis contains no point. -/
def Obligations.PointInRectIsHalfOpen : Prop :=
  ∀ (rd ra rb : Reg) (s : State),
    let inside : Prop := (s.reg rb).toInt ≤ (s.reg ra).toInt ∧ (s.reg ra).toInt < (s.reg (rb + 2)).toInt ∧
      (s.reg (rb + 1)).toInt ≤ (s.reg (ra + 1)).toInt ∧ (s.reg (ra + 1)).toInt < (s.reg (rb + 3)).toInt
    IllegalUnless (.ptinrect rd ra rb) (ra.val ≤ 14 ∧ rb.val ≤ 12) ∧
    (ra.val ≤ 14 → rb.val ≤ 12 → Completes (.ptinrect rd ra rb) s [rd] fun t =>
      (inside → t.reg rd = 1) ∧ (¬inside → t.reg rd = 0) ∧
      ((s.reg (rb + 2)).toInt ≤ (s.reg rb).toInt ∨ (s.reg (rb + 3)).toInt ≤ (s.reg (rb + 1)).toInt → t.reg rd = 0))

/-- R183, R184: RCWIDTH and RCHEIGHT, the differences modulo 2^32; exact where they fit. -/
def Obligations.RectWidthAndHeight : Prop :=
  ∀ (rd ra : Reg) (s : State),
    IllegalUnless (.rcwidth rd ra) (ra.val ≤ 12) ∧ IllegalUnless (.rcheight rd ra) (ra.val ≤ 12) ∧
    (ra.val ≤ 12 →
      let w := (s.reg (ra + 2)).toInt - (s.reg ra).toInt
      let h := (s.reg (ra + 3)).toInt - (s.reg (ra + 1)).toInt
      (Completes (.rcwidth rd ra) s [rd] fun t =>
        t.reg rd = .ofInt 32 w ∧ (-2 ^ 31 ≤ w → w < 2 ^ 31 → (t.reg rd).toInt = w)) ∧
      (Completes (.rcheight rd ra) s [rd] fun t =>
        t.reg rd = .ofInt 32 h ∧ (-2 ^ 31 ≤ h → h < 2 ^ 31 → (t.reg rd).toInt = h)))

/-- R185: RCSETPOS puts the top-left corner at the point and preserves the width and height patterns, also when a sum
wraps. -/
def Obligations.RectSetPositionKeepsTheSize : Prop :=
  ∀ (rd ra rb : Reg) (s : State),
    IllegalUnless (.rcsetpos rd ra rb) (rd.val ≤ 12 ∧ ra.val ≤ 12 ∧ rb.val ≤ 14) ∧
    (rd.val ≤ 12 → ra.val ≤ 12 → rb.val ≤ 14 →
      Completes (.rcsetpos rd ra rb) s [rd, rd + 1, rd + 2, rd + 3] fun t =>
        t.reg rd = s.reg rb ∧ t.reg (rd + 1) = s.reg (rb + 1) ∧
        t.reg (rd + 2) = .ofInt 32 ((s.reg (ra + 2)).toInt + ((s.reg rb).toInt - (s.reg ra).toInt)) ∧
        t.reg (rd + 3) = .ofInt 32 ((s.reg (ra + 3)).toInt + ((s.reg (rb + 1)).toInt - (s.reg (ra + 1)).toInt)) ∧
        t.reg (rd + 2) - t.reg rd = s.reg (ra + 2) - s.reg ra ∧
        t.reg (rd + 3) - t.reg (rd + 1) = s.reg (ra + 3) - s.reg (ra + 1))

/-- R182, R186: RCSETO places a rect of the given width and height at the given origin; RCSETSIZE keeps the top-left
corner and takes the new width and height, the old right and bottom not mattering. -/
def Obligations.RectFromCornerAndSize : Prop :=
  (∀ (rd ra rb rc re : Reg) (s : State), IllegalUnless (.rcseto rd ra rb rc re) (rd.val ≤ 12) ∧
    (rd.val ≤ 12 → Completes (.rcseto rd ra rb rc re) s [rd, rd + 1, rd + 2, rd + 3] fun t =>
      t.reg rd = s.reg ra ∧ t.reg (rd + 1) = s.reg rb ∧
      t.reg (rd + 2) = .ofInt 32 ((s.reg ra).toInt + (s.reg rc).toInt) ∧
      t.reg (rd + 3) = .ofInt 32 ((s.reg rb).toInt + (s.reg re).toInt) ∧
      t.reg (rd + 2) - t.reg rd = s.reg rc ∧ t.reg (rd + 3) - t.reg (rd + 1) = s.reg re)) ∧
  ∀ (rd ra rb : Reg) (s : State),
    IllegalUnless (.rcsetsize rd ra rb) (rd.val ≤ 12 ∧ ra.val ≤ 12 ∧ rb.val ≤ 14) ∧
    (rd.val ≤ 12 → ra.val ≤ 12 → rb.val ≤ 14 →
      Completes (.rcsetsize rd ra rb) s [rd, rd + 1, rd + 2, rd + 3] fun t =>
        t.reg rd = s.reg ra ∧ t.reg (rd + 1) = s.reg (ra + 1) ∧
        t.reg (rd + 2) = .ofInt 32 ((s.reg ra).toInt + (s.reg rb).toInt) ∧
        t.reg (rd + 3) = .ofInt 32 ((s.reg (ra + 1)).toInt + (s.reg (rb + 1)).toInt) ∧
        t.reg (rd + 2) - t.reg rd = s.reg rb ∧ t.reg (rd + 3) - t.reg (rd + 1) = s.reg (rb + 1))

/-- R187, R188, R189: RCMOVE adds the delta to both edges of each axis, RCINFL moves each edge outward, RCINFLR adds
the second rect field by field. -/
def Obligations.RectMoveAndInflate : Prop :=
  ∀ (rd ra rb : Reg) (s : State),
    let l := (s.reg ra).toInt
    let t0 := (s.reg (ra + 1)).toInt
    let r := (s.reg (ra + 2)).toInt
    let b := (s.reg (ra + 3)).toInt
    let v0 := (s.reg rb).toInt
    let v1 := (s.reg (rb + 1)).toInt
    let v2 := (s.reg (rb + 2)).toInt
    let v3 := (s.reg (rb + 3)).toInt
    IllegalUnless (.rcmove rd ra rb) (rd.val ≤ 12 ∧ ra.val ≤ 12 ∧ rb.val ≤ 14) ∧
    IllegalUnless (.rcinfl rd ra rb) (rd.val ≤ 12 ∧ ra.val ≤ 12 ∧ rb.val ≤ 14) ∧
    IllegalUnless (.rcinflr rd ra rb) (rd.val ≤ 12 ∧ ra.val ≤ 12 ∧ rb.val ≤ 12) ∧
    (rd.val ≤ 12 → ra.val ≤ 12 →
      (rb.val ≤ 14 → Completes (.rcmove rd ra rb) s [rd, rd + 1, rd + 2, rd + 3] fun t =>
        t.reg rd = .ofInt 32 (l + v0) ∧ t.reg (rd + 1) = .ofInt 32 (t0 + v1) ∧
        t.reg (rd + 2) = .ofInt 32 (r + v0) ∧ t.reg (rd + 3) = .ofInt 32 (b + v1) ∧
        t.reg (rd + 2) - t.reg rd = s.reg (ra + 2) - s.reg ra ∧
        t.reg (rd + 3) - t.reg (rd + 1) = s.reg (ra + 3) - s.reg (ra + 1)) ∧
      (rb.val ≤ 14 → Completes (.rcinfl rd ra rb) s [rd, rd + 1, rd + 2, rd + 3] fun t =>
        t.reg rd = .ofInt 32 (l - v0) ∧ t.reg (rd + 1) = .ofInt 32 (t0 - v1) ∧
        t.reg (rd + 2) = .ofInt 32 (r + v0) ∧ t.reg (rd + 3) = .ofInt 32 (b + v1) ∧
        t.reg (rd + 2) - t.reg rd = .ofInt 32 ((r - l) + 2 * v0) ∧
        t.reg (rd + 3) - t.reg (rd + 1) = .ofInt 32 ((b - t0) + 2 * v1)) ∧
      (rb.val ≤ 12 → Completes (.rcinflr rd ra rb) s [rd, rd + 1, rd + 2, rd + 3] fun t =>
        t.reg rd = .ofInt 32 (l + v0) ∧ t.reg (rd + 1) = .ofInt 32 (t0 + v1) ∧
        t.reg (rd + 2) = .ofInt 32 (r + v2) ∧ t.reg (rd + 3) = .ofInt 32 (b + v3)))

/-- R190: RCNORM orders each axis by itself, by a signed compare; an ordered axis is copied unchanged. -/
def Obligations.RectNormalizeOrdersEachAxis : Prop :=
  ∀ (rd ra : Reg) (s : State), IllegalUnless (.rcnorm rd ra) (rd.val ≤ 12 ∧ ra.val ≤ 12) ∧
    (rd.val ≤ 12 → ra.val ≤ 12 → Completes (.rcnorm rd ra) s [rd, rd + 1, rd + 2, rd + 3] fun t =>
      ((s.reg (ra + 2)).toInt < (s.reg ra).toInt → t.reg rd = s.reg (ra + 2) ∧ t.reg (rd + 2) = s.reg ra) ∧
      ((s.reg ra).toInt ≤ (s.reg (ra + 2)).toInt → t.reg rd = s.reg ra ∧ t.reg (rd + 2) = s.reg (ra + 2)) ∧
      ((s.reg (ra + 3)).toInt < (s.reg (ra + 1)).toInt →
        t.reg (rd + 1) = s.reg (ra + 3) ∧ t.reg (rd + 3) = s.reg (ra + 1)) ∧
      ((s.reg (ra + 1)).toInt ≤ (s.reg (ra + 3)).toInt →
        t.reg (rd + 1) = s.reg (ra + 1) ∧ t.reg (rd + 3) = s.reg (ra + 3)))

/-- R191: RCNORM is idempotent (a second one copies the first one's rect), leaves the edges ordered, and keeps the
width and the height in absolute value wherever the exact difference fits in 32 bits and is not -2^31; the width
pattern before and after is the same or its negative always. -/
def Obligations.RectNormalizeIsIdempotent : Prop :=
  ∀ (rd rq ra : Reg) (s t u : State), rd.val ≤ 12 → rq.val ≤ 12 → ra.val ≤ 12 →
    exec (.rcnorm rd ra) s = .next t → exec (.rcnorm rq rd) t = .next u →
    (u.reg rq = t.reg rd ∧ u.reg (rq + 1) = t.reg (rd + 1) ∧ u.reg (rq + 2) = t.reg (rd + 2) ∧
      u.reg (rq + 3) = t.reg (rd + 3)) ∧
    (t.reg rd).toInt ≤ (t.reg (rd + 2)).toInt ∧ (t.reg (rd + 1)).toInt ≤ (t.reg (rd + 3)).toInt ∧
    (t.reg (rd + 2) - t.reg rd = s.reg (ra + 2) - s.reg ra ∨
      t.reg (rd + 2) - t.reg rd = -(s.reg (ra + 2) - s.reg ra)) ∧
    (t.reg (rd + 3) - t.reg (rd + 1) = s.reg (ra + 3) - s.reg (ra + 1) ∨
      t.reg (rd + 3) - t.reg (rd + 1) = -(s.reg (ra + 3) - s.reg (ra + 1))) ∧
    (|(s.reg (ra + 2)).toInt - (s.reg ra).toInt| < 2 ^ 31 →
      |(t.reg (rd + 2) - t.reg rd).toInt| = |(s.reg (ra + 2) - s.reg ra).toInt|) ∧
    (|(s.reg (ra + 3)).toInt - (s.reg (ra + 1)).toInt| < 2 ^ 31 →
      |(t.reg (rd + 3) - t.reg (rd + 1)).toInt| = |(s.reg (ra + 3) - s.reg (ra + 1)).toInt|)

/-- R202, R203: VADD and VSUB, component by component, modulo 2^32. -/
def Obligations.VectorAddAndSubAreComponentwise : Prop :=
  ∀ (rd ra rb : Reg) (s : State),
    IllegalUnless (.vadd rd ra rb) (rd.val ≤ 13 ∧ ra.val ≤ 13 ∧ rb.val ≤ 13) ∧
    IllegalUnless (.vsub rd ra rb) (rd.val ≤ 13 ∧ ra.val ≤ 13 ∧ rb.val ≤ 13) ∧
    (rd.val ≤ 13 → ra.val ≤ 13 → rb.val ≤ 13 →
      (Completes (.vadd rd ra rb) s [rd, rd + 1, rd + 2] fun t =>
        t.reg rd = .ofInt 32 ((s.reg ra).toInt + (s.reg rb).toInt) ∧
        t.reg (rd + 1) = .ofInt 32 ((s.reg (ra + 1)).toInt + (s.reg (rb + 1)).toInt) ∧
        t.reg (rd + 2) = .ofInt 32 ((s.reg (ra + 2)).toInt + (s.reg (rb + 2)).toInt)) ∧
      (Completes (.vsub rd ra rb) s [rd, rd + 1, rd + 2] fun t =>
        t.reg rd = .ofInt 32 ((s.reg ra).toInt - (s.reg rb).toInt) ∧
        t.reg (rd + 1) = .ofInt 32 ((s.reg (ra + 1)).toInt - (s.reg (rb + 1)).toInt) ∧
        t.reg (rd + 2) = .ofInt 32 ((s.reg (ra + 2)).toInt - (s.reg (rb + 2)).toInt)))

/-- R204, R205: VMUL and VSCALE use the narrow product of MUL, here as the 32-bit datapath (product modulo 2^32, then
the arithmetic shift by 8) on every component; a scalar of 1.0 copies a component between -2^23 and 2^23 - 1. -/
def Obligations.VectorProductsAreNarrow : Prop :=
  ∀ (rd ra rb : Reg) (s : State),
    IllegalUnless (.vmul rd ra rb) (rd.val ≤ 13 ∧ ra.val ≤ 13 ∧ rb.val ≤ 13) ∧
    IllegalUnless (.vscale rd ra rb) (rd.val ≤ 13 ∧ ra.val ≤ 13) ∧
    (rd.val ≤ 13 → ra.val ≤ 13 →
      (rb.val ≤ 13 → Completes (.vmul rd ra rb) s [rd, rd + 1, rd + 2] fun t =>
        t.reg rd = (s.reg ra * s.reg rb).sshiftRight 8 ∧
        t.reg (rd + 1) = (s.reg (ra + 1) * s.reg (rb + 1)).sshiftRight 8 ∧
        t.reg (rd + 2) = (s.reg (ra + 2) * s.reg (rb + 2)).sshiftRight 8) ∧
      (Completes (.vscale rd ra rb) s [rd, rd + 1, rd + 2] fun t =>
        t.reg rd = (s.reg ra * s.reg rb).sshiftRight 8 ∧
        t.reg (rd + 1) = (s.reg (ra + 1) * s.reg rb).sshiftRight 8 ∧
        t.reg (rd + 2) = (s.reg (ra + 2) * s.reg rb).sshiftRight 8 ∧
        (s.reg rb = 0x100 → ∀ k : Reg, k.val ≤ 2 → -2 ^ 23 ≤ (s.reg (ra + k)).toInt →
          (s.reg (ra + k)).toInt < 2 ^ 23 → t.reg (rd + k) = s.reg (ra + k))))

/-- R206, with the range of R209: VDOT is the sum of the three narrow products, each shifted before the sum; every
narrow product lies in -2^23 .. 2^23 - 1, so the sum is exact. -/
def Obligations.VectorDotNeverWraps : Prop :=
  ∀ (rd ra rb : Reg) (s : State),
    let p : Reg → Int := fun k => ((s.reg (ra + k) * s.reg (rb + k)).sshiftRight 8).toInt
    IllegalUnless (.vdot rd ra rb) (ra.val ≤ 13 ∧ rb.val ≤ 13) ∧
    (∀ k, -2 ^ 23 ≤ p k ∧ p k ≤ 2 ^ 23 - 1) ∧
    (ra.val ≤ 13 → rb.val ≤ 13 → Completes (.vdot rd ra rb) s [rd] fun t => (t.reg rd).toInt = p 0 + p 1 + p 2)

/-- R207: VCROSS is the right-handed cross product of narrow products, each shifted before the subtraction; the
differences are exact, and a vector crossed with itself gives zero. -/
def Obligations.VectorCrossIsRightHanded : Prop :=
  ∀ (rd ra rb : Reg) (s : State),
    let p : Reg → Reg → Int := fun j k => ((s.reg (ra + j) * s.reg (rb + k)).sshiftRight 8).toInt
    IllegalUnless (.vcross rd ra rb) (rd.val ≤ 13 ∧ ra.val ≤ 13 ∧ rb.val ≤ 13) ∧
    (rd.val ≤ 13 → ra.val ≤ 13 → rb.val ≤ 13 → Completes (.vcross rd ra rb) s [rd, rd + 1, rd + 2] fun t =>
      (t.reg rd).toInt = p 1 2 - p 2 1 ∧ (t.reg (rd + 1)).toInt = p 2 0 - p 0 2 ∧
      (t.reg (rd + 2)).toInt = p 0 1 - p 1 0 ∧
      (ra = rb → t.reg rd = 0 ∧ t.reg (rd + 1) = 0 ∧ t.reg (rd + 2) = 0))
end

