-- ==== Sys2Proof/Laws/Arith.lean ====
section
/-! SUPPORT. The integer functions of 00_scope.md R9 on patterns, and the bounds of the tables. -/

namespace Sys2Proof.Machine

theorem s32_lower (p : Word) : -2 ^ 31 ≤ s32 p := BitVec.le_toInt p

theorem s32_upper (p : Word) : s32 p < 2 ^ 31 := BitVec.toInt_lt

@[simp] theorem wrap32_s32 (p : Word) : wrap32 (s32 p) = p := BitVec.ofInt_toInt

/-- `s32(wrap32(v)) = v` when `v` fits (R9). -/
theorem s32_wrap32 {v : Int} (h₁ : -2 ^ 31 ≤ v) (h₂ : v < 2 ^ 31) : s32 (wrap32 v) = v := by
  unfold s32 wrap32
  rw [BitVec.toInt_ofInt]
  exact Int.bmod_eq_of_le (by norm_num; omega) (by norm_num; omega)

/-- The balanced residue that `s32(wrap32(v))` is for every `v`. -/
theorem s32_wrap32_eq_bmod (v : Int) : s32 (wrap32 v) = v.bmod (2 ^ 32) := BitVec.toInt_ofInt v

theorem wrap32_add (u v : Int) : wrap32 (u + v) = wrap32 u + wrap32 v := BitVec.ofInt_add u v

theorem wrap32_mul (u v : Int) : wrap32 (u * v) = wrap32 u * wrap32 v := BitVec.ofInt_mul u v

theorem wrap32_neg (u : Int) : wrap32 (-u) = -wrap32 u := BitVec.ofInt_neg

theorem wrap32_sub (u v : Int) : wrap32 (u - v) = wrap32 u - wrap32 v := by
  rw [sub_eq_add_neg, wrap32_add, wrap32_neg, ← BitVec.sub_eq_add_neg]

theorem s32_eq_zero {p : Word} : s32 p = 0 ↔ p = 0 := by
  constructor
  · intro h
    rw [← wrap32_s32 p, h]; rfl
  · rintro rfl; rfl

/-- The narrow product always lies in -2^23 .. 2^23 - 1 (45_vector.md R209), so no wrap follows the shift. -/
theorem fxmul_eq (a b : Int) : fxmul a b = s32 (wrap32 (a * b)) / 2 ^ 8 := by
  have h₁ := s32_lower (wrap32 (a * b))
  have h₂ := s32_upper (wrap32 (a * b))
  simp only [fxmul, asr]
  exact s32_wrap32 (by omega) (by omega)

theorem sinEntries_length : sinEntries.length = Config.sinLutLen := by decide +kernel

theorem sinRom_length : sinRom.length = Config.sinLutLen := by simp [sinRom, sinEntries_length]

theorem divRom_length : divRom.length = Config.divLutLen := by
  have h : divEntries.length = 256 := by decide +kernel
  simp [divRom, h, Config.divLutLen]

/-- Every entry of the sine table fits its 16 bits (R52). -/
theorem sinEntries_fit : ∀ e ∈ sinEntries, s16 (BitVec.ofInt 16 e) = e := by decide +kernel

/-- An entry of the sine table in the number form of R53. -/
theorem sinLut_eq_entry (i : Nat) : sinLut i = sinEntries.getD i 0 := by
  have h : ∀ e, e ∈ sinEntries ∨ e = 0 → s16 (BitVec.ofInt 16 e) = e := by
    rintro e (he | rfl)
    · exact sinEntries_fit e he
    · rfl
  rw [sinLut, sinRom, show (0 : Half) = BitVec.ofInt 16 0 from rfl, List.getD_map]
  apply h
  by_cases hi : i < sinEntries.length
  · exact .inl (by rw [List.getD_eq_getElem _ _ hi]; exact List.getElem_mem hi)
  · exact .inr (List.getD_eq_default _ _ (by omega))

/-- An entry of the reciprocal table in the number form of R55. -/
theorem divLutWord_succ (i : Nat) : divLutWord (i + 1) = (divEntries.map (BitVec.ofNat 32)).getD i 0 := by
  simp only [divLutWord, divRom, List.getD_cons_succ]

end Sys2Proof.Machine
end

