-- ==== Sys2Proof/Laws/Decode.lean ====
section
/-! SUPPORT. The fields of an encoded word, the masked words, and what the decoder's row check can answer. -/

namespace Sys2Proof

theorem regBits_toNat (r : Reg) : (regBits r).toNat = r.val := rfl

theorem regField_val (w : Word) (lo : Nat) : (regField w lo).val = w.toNat / 2 ^ lo % 16 := by
  show (w.extractLsb' lo 4).toNat = _
  simp [BitVec.extractLsb'_toNat, Nat.shiftRight_eq_div_pow]

theorem immField_val (w : Word) : (immField w).val = w.toNat % 32 := by
  show (w.extractLsb' 0 5).toNat = _
  simp [BitVec.extractLsb'_toNat]

theorem opcodeField_toNat (w : Word) : (opcodeField w).toNat = w.toNat / 2 ^ 24 % 256 := by
  simp [opcodeField, BitVec.extractLsb'_toNat, Nat.shiftRight_eq_div_pow]

theorem shiftLeft_or_eq (a b k : Nat) (hb : b < 2 ^ k) : a <<< k ||| b = a * 2 ^ k + b := by
  rw [← Nat.shiftLeft_add_eq_or_of_lt hb, Nat.shiftLeft_eq]

/-- Format R as a number (30_encoding.md R81). -/
theorem encodeR_toNat (op : BitVec 8) (rd ra rb rc re : Reg) :
    (encodeR op rd ra rb rc re).toNat =
      op.toNat * 2 ^ 24 + rd.val * 2 ^ 20 + ra.val * 2 ^ 16 + rb.val * 2 ^ 12 + rc.val * 2 ^ 8 + re.val * 2 ^ 4 := by
  have := rd.isLt; have := ra.isLt; have := rb.isLt; have := rc.isLt; have := re.isLt
  simp only [encodeR, BitVec.toNat_append, regBits_toNat, BitVec.toNat_ofNat]
  rw [shiftLeft_or_eq _ _ 4 (by omega), shiftLeft_or_eq _ _ 4 (by omega), shiftLeft_or_eq _ _ 4 (by omega),
    shiftLeft_or_eq _ _ 4 (by omega), shiftLeft_or_eq _ _ 4 (by omega), shiftLeft_or_eq _ _ 4 (by omega)]
  omega

/-- Format I as a number (30_encoding.md R82). -/
theorem encodeI_toNat (op : BitVec 8) (rd ra rb : Reg) (imm : Imm5) :
    (encodeI op rd ra rb imm).toNat =
      op.toNat * 2 ^ 24 + rd.val * 2 ^ 20 + ra.val * 2 ^ 16 + rb.val * 2 ^ 12 + imm.val := by
  have := rd.isLt; have := ra.isLt; have := rb.isLt; have := imm.isLt
  simp only [encodeI, BitVec.toNat_append, regBits_toNat, BitVec.toNat_ofNat, BitVec.toNat_ofFin]
  rw [shiftLeft_or_eq _ _ 4 (by omega), shiftLeft_or_eq _ _ 4 (by omega), shiftLeft_or_eq _ _ 4 (by omega),
    shiftLeft_or_eq _ _ 7 (by omega), shiftLeft_or_eq _ _ 5 (by omega)]
  omega

section Fields

variable (op : BitVec 8) (rd ra rb rc re : Reg) (imm : Imm5)

@[simp] theorem opcodeField_encodeR : opcodeField (encodeR op rd ra rb rc re) = op := by
  apply BitVec.eq_of_toNat_eq
  rw [opcodeField_toNat, encodeR_toNat]
  omega

@[simp] theorem rdField_encodeR : rdField (encodeR op rd ra rb rc re) = rd := by
  apply Fin.ext; rw [rdField, regField_val, encodeR_toNat]; omega

@[simp] theorem raField_encodeR : raField (encodeR op rd ra rb rc re) = ra := by
  apply Fin.ext; rw [raField, regField_val, encodeR_toNat]; omega

@[simp] theorem rbField_encodeR : rbField (encodeR op rd ra rb rc re) = rb := by
  apply Fin.ext; rw [rbField, regField_val, encodeR_toNat]; omega

@[simp] theorem rcField_encodeR : rcField (encodeR op rd ra rb rc re) = rc := by
  apply Fin.ext; rw [rcField, regField_val, encodeR_toNat]; omega

@[simp] theorem reField_encodeR : reField (encodeR op rd ra rb rc re) = re := by
  apply Fin.ext; rw [reField, regField_val, encodeR_toNat]; omega

@[simp] theorem opcodeField_encodeI : opcodeField (encodeI op rd ra rb imm) = op := by
  apply BitVec.eq_of_toNat_eq
  rw [opcodeField_toNat, encodeI_toNat]
  omega

@[simp] theorem rdField_encodeI : rdField (encodeI op rd ra rb imm) = rd := by
  apply Fin.ext; rw [rdField, regField_val, encodeI_toNat]; omega

@[simp] theorem raField_encodeI : raField (encodeI op rd ra rb imm) = ra := by
  apply Fin.ext; rw [raField, regField_val, encodeI_toNat]; omega

@[simp] theorem rbField_encodeI : rbField (encodeI op rd ra rb imm) = rb := by
  apply Fin.ext; rw [rbField, regField_val, encodeI_toNat]; omega

@[simp] theorem immField_encodeI : immField (encodeI op rd ra rb imm) = imm := by
  apply Fin.ext; rw [immField_val, encodeI_toNat]; omega

/-! The words under the masks of 30_encoding.md R85. -/

theorem encodeR_mask_two : encodeR op rd ra 0 0 0 &&& 0xFF00FFFF = op ++ 0#24 := by
  apply BitVec.eq_of_getLsbD_eq; intro i hi
  simp only [encodeR, regBits, BitVec.getLsbD_and, BitVec.getLsbD_append]
  interval_cases i <;> simp

theorem encodeR_mask_three : encodeR op rd ra rb 0 0 &&& 0xFF000FFF = op ++ 0#24 := by
  apply BitVec.eq_of_getLsbD_eq; intro i hi
  simp only [encodeR, regBits, BitVec.getLsbD_and, BitVec.getLsbD_append]
  interval_cases i <;> simp

theorem encodeR_mask_four : encodeR op rd ra rb rc 0 &&& 0xFF0000FF = op ++ 0#24 := by
  apply BitVec.eq_of_getLsbD_eq; intro i hi
  simp only [encodeR, regBits, BitVec.getLsbD_and, BitVec.getLsbD_append]
  interval_cases i <;> simp

theorem encodeR_mask_five : encodeR op rd ra rb rc re &&& 0xFF00000F = op ++ 0#24 := by
  apply BitVec.eq_of_getLsbD_eq; intro i hi
  simp only [encodeR, regBits, BitVec.getLsbD_and, BitVec.getLsbD_append]
  interval_cases i <;> simp

theorem encodeI_mask_two : encodeI op rd ra 0 imm &&& 0xFF00FFE0 = op ++ 0#24 := by
  apply BitVec.eq_of_getLsbD_eq; intro i hi
  simp only [encodeI, regBits, BitVec.getLsbD_and, BitVec.getLsbD_append]
  interval_cases i <;> simp

theorem encodeI_mask_three : encodeI op rd ra rb imm &&& 0xFF000FE0 = op ++ 0#24 := by
  apply BitVec.eq_of_getLsbD_eq; intro i hi
  simp only [encodeI, regBits, BitVec.getLsbD_and, BitVec.getLsbD_append]
  interval_cases i <;> simp

end Fields

/-- Everything the row check can accept. -/
theorem checkRow_eq_ok {w m k : Word} {i j : Instr} :
    checkRow w m k i = .ok j ↔ w &&& k = m ∧ i.wellFormed = true ∧ i = j := by
  unfold checkRow
  by_cases h₁ : w &&& k = m <;> by_cases h₂ : i.wellFormed = true <;> simp [h₁, h₂]

/-- The row check never answers that the opcode is reserved. -/
theorem checkRow_ne_reserved (w m k : Word) (i : Instr) : checkRow w m k i ≠ .error .reservedOpcode := by
  unfold checkRow
  by_cases h₁ : w &&& k = m <;> by_cases h₂ : i.wellFormed = true <;> simp [h₁, h₂]

/-- A row check's error is one of two. -/
theorem checkRow_eq_error {w m k : Word} {i : Instr} {e : Illegal} (h : checkRow w m k i = .error e) :
    (e = .unusedFieldSet ∧ w &&& k ≠ m) ∨ (e = .groupPastEnd ∧ w &&& k = m ∧ i.wellFormed = false) := by
  unfold checkRow at h
  by_cases h₁ : w &&& k = m <;> by_cases h₂ : i.wellFormed = true <;> simp_all

/-- The bytes of a word, put together again, are the word (20_memory.md R61). -/
@[simp] theorem wordOfBytes_bytesOfWord (w : Word) : wordOfBytes (bytesOfWord w) = some w := by
  simp only [wordOfBytes, bytesOfWord, Option.some.injEq]
  apply BitVec.eq_of_getLsbD_eq; intro i hi
  simp only [BitVec.getLsbD_append, BitVec.getLsbD_extractLsb']
  interval_cases i <;> simp

end Sys2Proof
end

