-- ==== Sys2Proof/Laws/State.lean ====
section
/-! SUPPORT. One lemma per field per update of State, and the register read after each update. -/

namespace Sys2Proof.Machine

variable (s : State) (r q : Reg) (v w : Word) (c : Cause) (rest : List HostAction)

/-! ## write -/

@[simp] theorem State.write_fault : (s.write r v).fault = s.fault := rfl
@[simp] theorem State.write_cause : (s.write r v).cause = s.cause := rfl
@[simp] theorem State.write_faultCmd : (s.write r v).faultCmd = s.faultCmd := rfl
@[simp] theorem State.write_resetGpr : (s.write r v).resetGpr = s.resetGpr := rfl
@[simp] theorem State.write_script : (s.write r v).script = s.script := rfl
@[simp] theorem State.write_returned : (s.write r v).returned = s.returned := rfl

/-- A register read after a write: the value written there, every other register as before. -/
theorem State.reg_write : (s.write r v).reg q = if q = r then v else s.reg q := by
  simp [State.write, State.reg, Vector.getElem_set, Fin.ext_iff, eq_comm]

@[simp] theorem State.reg_write_self : (s.write r v).reg r = v := by simp [State.reg_write]

theorem State.reg_write_of_ne (h : q ≠ r) : (s.write r v).reg q = s.reg q := by simp [State.reg_write, h]

/-! ## raise -/

@[simp] theorem State.raise_regs : (s.raise c w).regs = s.regs := rfl
@[simp] theorem State.raise_fault : (s.raise c w).fault = true := rfl
@[simp] theorem State.raise_cause : (s.raise c w).cause = c := rfl
@[simp] theorem State.raise_faultCmd : (s.raise c w).faultCmd = w := rfl
@[simp] theorem State.raise_resetGpr : (s.raise c w).resetGpr = s.resetGpr := rfl
@[simp] theorem State.raise_script : (s.raise c w).script = s.script := rfl
@[simp] theorem State.raise_returned : (s.raise c w).returned = s.returned := rfl
@[simp] theorem State.reg_raise : (s.raise c w).reg q = s.reg q := rfl

/-! ## clearFault -/

@[simp] theorem State.clearFault_regs : s.clearFault.regs = s.regs := rfl
@[simp] theorem State.clearFault_fault : s.clearFault.fault = false := rfl
@[simp] theorem State.clearFault_cause : s.clearFault.cause = .none := rfl
@[simp] theorem State.clearFault_faultCmd : s.clearFault.faultCmd = 0 := rfl
@[simp] theorem State.clearFault_resetGpr : s.clearFault.resetGpr = s.resetGpr := rfl
@[simp] theorem State.clearFault_script : s.clearFault.script = s.script := rfl
@[simp] theorem State.clearFault_returned : s.clearFault.returned = s.returned := rfl
@[simp] theorem State.reg_clearFault : s.clearFault.reg q = s.reg q := rfl

/-! ## resetBlock -/

@[simp] theorem State.resetBlock_regs : s.resetBlock.regs = s.resetGpr := rfl
@[simp] theorem State.resetBlock_fault : s.resetBlock.fault = false := rfl
@[simp] theorem State.resetBlock_cause : s.resetBlock.cause = .none := rfl
@[simp] theorem State.resetBlock_faultCmd : s.resetBlock.faultCmd = 0 := rfl
@[simp] theorem State.resetBlock_resetGpr : s.resetBlock.resetGpr = s.resetGpr := rfl
@[simp] theorem State.resetBlock_script : s.resetBlock.script = s.script := rfl
@[simp] theorem State.resetBlock_returned : s.resetBlock.returned = s.returned := rfl
@[simp] theorem State.reg_resetBlock : s.resetBlock.reg q = s.resetGpr[q] := rfl

/-! ## returnWord -/

@[simp] theorem State.returnWord_regs : (s.returnWord v).regs = s.regs := rfl
@[simp] theorem State.returnWord_fault : (s.returnWord v).fault = s.fault := rfl
@[simp] theorem State.returnWord_cause : (s.returnWord v).cause = s.cause := rfl
@[simp] theorem State.returnWord_faultCmd : (s.returnWord v).faultCmd = s.faultCmd := rfl
@[simp] theorem State.returnWord_resetGpr : (s.returnWord v).resetGpr = s.resetGpr := rfl
@[simp] theorem State.returnWord_script : (s.returnWord v).script = s.script := rfl
@[simp] theorem State.returnWord_returned : (s.returnWord v).returned = v :: s.returned := rfl
@[simp] theorem State.reg_returnWord : (s.returnWord v).reg q = s.reg q := rfl

/-! ## The script taken -/

@[simp] theorem State.reg_scriptTaken : State.reg { s with script := rest } q = s.reg q := rfl
@[simp] theorem State.sx_scriptTaken : State.sx { s with script := rest } q = s.sx q := rfl
@[simp] theorem State.ux_scriptTaken : State.ux { s with script := rest } q = s.ux q := rfl

/-! ## writeGroup -/

@[simp] theorem State.writeGroup_nil : s.writeGroup r [] = s := rfl

@[simp] theorem State.writeGroup_cons (vs : List Word) :
    s.writeGroup r (v :: vs) = (s.write r v).writeGroup (r + 1) vs := rfl

@[simp] theorem State.writeGroup_fault (vs : List Word) : (s.writeGroup r vs).fault = s.fault := by
  induction vs generalizing s r with
  | nil => rfl
  | cons v vs ih => simp [ih]

@[simp] theorem State.writeGroup_cause (vs : List Word) : (s.writeGroup r vs).cause = s.cause := by
  induction vs generalizing s r with
  | nil => rfl
  | cons v vs ih => simp [ih]

@[simp] theorem State.writeGroup_faultCmd (vs : List Word) : (s.writeGroup r vs).faultCmd = s.faultCmd := by
  induction vs generalizing s r with
  | nil => rfl
  | cons v vs ih => simp [ih]

@[simp] theorem State.writeGroup_resetGpr (vs : List Word) : (s.writeGroup r vs).resetGpr = s.resetGpr := by
  induction vs generalizing s r with
  | nil => rfl
  | cons v vs ih => simp [ih]

@[simp] theorem State.writeGroup_script (vs : List Word) : (s.writeGroup r vs).script = s.script := by
  induction vs generalizing s r with
  | nil => rfl
  | cons v vs ih => simp [ih]

@[simp] theorem State.writeGroup_returned (vs : List Word) : (s.writeGroup r vs).returned = s.returned := by
  induction vs generalizing s r with
  | nil => rfl
  | cons v vs ih => simp [ih]

end Sys2Proof.Machine
end

