-- ==== Sys2Proof/Laws/Groups.lean ====
section
/-! SUPPORT. What the shared operations over operands can do: group writes, the legality guard, fault entry. -/

namespace Sys2Proof.Machine

theorem reg_succ_ne (r : Reg) : r + 1 ≠ r ∧ r + 2 ≠ r ∧ r + 3 ≠ r ∧ r + 2 ≠ r + 1 ∧ r + 3 ≠ r + 1 ∧ r + 3 ≠ r + 2 := by
  revert r; decide

theorem reg_add_assoc (r : Reg) : r + 1 + 1 = r + 2 ∧ r + 2 + 1 = r + 3 := by
  revert r; decide

/-- A group write of two patterns, register by register. -/
theorem State.writeGroup_two (s : State) (r : Reg) (a b : Word) :
    (s.writeGroup r [a, b]).reg r = a ∧ (s.writeGroup r [a, b]).reg (r + 1) = b ∧
      ∀ q, q ∉ [r, r + 1] → (s.writeGroup r [a, b]).reg q = s.reg q := by
  have h := reg_succ_ne r
  refine ⟨?_, ?_, fun q hq => ?_⟩ <;> simp_all [State.reg_write, eq_comm]

/-- A group write of three patterns, register by register. -/
theorem State.writeGroup_three (s : State) (r : Reg) (a b c : Word) :
    (s.writeGroup r [a, b, c]).reg r = a ∧ (s.writeGroup r [a, b, c]).reg (r + 1) = b ∧
      (s.writeGroup r [a, b, c]).reg (r + 2) = c ∧
      ∀ q, q ∉ [r, r + 1, r + 2] → (s.writeGroup r [a, b, c]).reg q = s.reg q := by
  have h := reg_succ_ne r
  have h' := reg_add_assoc r
  refine ⟨?_, ?_, ?_, fun q hq => ?_⟩ <;> simp_all [State.reg_write, eq_comm]

/-- A group write of four patterns, register by register. -/
theorem State.writeGroup_four (s : State) (r : Reg) (a b c d : Word) :
    (s.writeGroup r [a, b, c, d]).reg r = a ∧ (s.writeGroup r [a, b, c, d]).reg (r + 1) = b ∧
      (s.writeGroup r [a, b, c, d]).reg (r + 2) = c ∧ (s.writeGroup r [a, b, c, d]).reg (r + 3) = d ∧
      ∀ q, q ∉ [r, r + 1, r + 2, r + 3] → (s.writeGroup r [a, b, c, d]).reg q = s.reg q := by
  have h := reg_succ_ne r
  have h' := reg_add_assoc r
  refine ⟨?_, ?_, ?_, ?_, fun q hq => ?_⟩ <;> simp_all [State.reg_write, eq_comm]

/-! ## OnlyWrites -/

theorem State.onlyWrites_write (s : State) (r : Reg) (v : Word) : s.OnlyWrites (s.write r v) [r] := by
  refine ⟨fun q hq => ?_, rfl, rfl, rfl, rfl, rfl, rfl⟩
  exact State.reg_write_of_ne s r q v (by simpa using hq)

theorem State.onlyWrites_two (s : State) (r : Reg) (a b : Word) :
    s.OnlyWrites (s.writeGroup r [a, b]) [r, r + 1] :=
  ⟨(s.writeGroup_two r a b).2.2, by simp, by simp, by simp, by simp, by simp, by simp⟩

theorem State.onlyWrites_three (s : State) (r : Reg) (a b c : Word) :
    s.OnlyWrites (s.writeGroup r [a, b, c]) [r, r + 1, r + 2] :=
  ⟨(s.writeGroup_three r a b c).2.2.2, by simp, by simp, by simp, by simp, by simp, by simp⟩

theorem State.onlyWrites_four (s : State) (r : Reg) (a b c d : Word) :
    s.OnlyWrites (s.writeGroup r [a, b, c, d]) [r, r + 1, r + 2, r + 3] :=
  ⟨(s.writeGroup_four r a b c d).2.2.2.2, by simp, by simp, by simp, by simp, by simp, by simp⟩

/-- The whole of fault entry. -/
theorem State.raise_entersFault (s : State) (c : Cause) (w : Word) : s.EntersFault (s.raise c w) c w :=
  ⟨rfl, rfl, rfl, rfl, fun _ => rfl, rfl, rfl, rfl⟩

/-- Everything the guard can do. -/
theorem State.ifLegal_eq_next {s t : State} {i : Instr} {res : Result} (h : s.ifLegal i res = .next t) :
    (i.wellFormed = true ∧ res = .next t) ∨
      (i.wellFormed = false ∧ t = s.raise .illegalCommand (encode i)) := by
  by_cases hw : i.wellFormed = true
  · exact .inl ⟨hw, by simpa [State.ifLegal, hw] using h⟩
  · have hw' : i.wellFormed = false := by simpa using hw
    rw [State.ifLegal, hw'] at h
    exact .inr ⟨hw', by cases h; rfl⟩

theorem State.ifLegal_of_wellFormed {i : Instr} (h : i.wellFormed = true) (s : State) (res : Result) :
    s.ifLegal i res = res := by simp [State.ifLegal, h]

theorem State.ifLegal_of_not_wellFormed {i : Instr} (h : i.wellFormed = false) (s : State) (res : Result) :
    s.ifLegal i res = .next (s.raise .illegalCommand (encode i)) := by simp [State.ifLegal, h, State.raiseBy]

end Sys2Proof.Machine
end

