-- ==== Sys2Proof/Laws/PerInstr.lean ====
section
/-! SUPPORT. Statements about every command, one lemma per constructor of Instr. -/

namespace Sys2Proof.Laws

/-- The command's word has the fixed bits of the row of 30_encoding.md R85 that bears its mnemonic. -/
def EncodesRow.Statement (i : Instr) : Prop :=
  ∃ row, row ∈ opcodeMap ∧ row.mnemonic = i.mnemonic ∧ encode i &&& row.mask = row.matchBits

theorem EncodesRow.fromint (rd ra : Reg) : EncodesRow.Statement (.fromint rd ra) :=
  ⟨opcodeMap[0], by decide, rfl, encodeR_mask_two ..⟩

theorem EncodesRow.touint (rd ra : Reg) : EncodesRow.Statement (.touint rd ra) :=
  ⟨opcodeMap[1], by decide, rfl, encodeR_mask_two ..⟩

theorem EncodesRow.tofrac (rd ra : Reg) : EncodesRow.Statement (.tofrac rd ra) :=
  ⟨opcodeMap[2], by decide, rfl, encodeR_mask_two ..⟩

theorem EncodesRow.toint (rd ra : Reg) : EncodesRow.Statement (.toint rd ra) :=
  ⟨opcodeMap[3], by decide, rfl, encodeR_mask_two ..⟩

theorem EncodesRow.add (rd ra rb : Reg) : EncodesRow.Statement (.add rd ra rb) :=
  ⟨opcodeMap[4], by decide, rfl, encodeR_mask_three ..⟩

theorem EncodesRow.sub (rd ra rb : Reg) : EncodesRow.Statement (.sub rd ra rb) :=
  ⟨opcodeMap[5], by decide, rfl, encodeR_mask_three ..⟩

theorem EncodesRow.mul (rd ra rb : Reg) : EncodesRow.Statement (.mul rd ra rb) :=
  ⟨opcodeMap[6], by decide, rfl, encodeR_mask_three ..⟩

theorem EncodesRow.mul64 (rd ra rb : Reg) : EncodesRow.Statement (.mul64 rd ra rb) :=
  ⟨opcodeMap[7], by decide, rfl, encodeR_mask_three ..⟩

theorem EncodesRow.div (rd ra rb : Reg) : EncodesRow.Statement (.div rd ra rb) :=
  ⟨opcodeMap[8], by decide, rfl, encodeR_mask_three ..⟩

theorem EncodesRow.div64 (rd ra rb : Reg) : EncodesRow.Statement (.div64 rd ra rb) :=
  ⟨opcodeMap[9], by decide, rfl, encodeR_mask_three ..⟩

theorem EncodesRow.recimul (rd ra rb : Reg) (imm : Imm5) : EncodesRow.Statement (.recimul rd ra rb imm) :=
  ⟨opcodeMap[10], by decide, rfl, encodeI_mask_three ..⟩

theorem EncodesRow.lerp16 (rd ra : Reg) (imm : Imm5) : EncodesRow.Statement (.lerp16 rd ra imm) :=
  ⟨opcodeMap[11], by decide, rfl, encodeI_mask_two ..⟩

theorem EncodesRow.lerp32 (rd ra : Reg) (imm : Imm5) : EncodesRow.Statement (.lerp32 rd ra imm) :=
  ⟨opcodeMap[12], by decide, rfl, encodeI_mask_two ..⟩

theorem EncodesRow.sin (rd ra : Reg) : EncodesRow.Statement (.sin rd ra) :=
  ⟨opcodeMap[13], by decide, rfl, encodeR_mask_two ..⟩

theorem EncodesRow.cos (rd ra : Reg) : EncodesRow.Statement (.cos rd ra) :=
  ⟨opcodeMap[14], by decide, rfl, encodeR_mask_two ..⟩

theorem EncodesRow.recip (rd ra : Reg) : EncodesRow.Statement (.recip rd ra) :=
  ⟨opcodeMap[15], by decide, rfl, encodeR_mask_two ..⟩

theorem EncodesRow.ptset (rd ra rb : Reg) : EncodesRow.Statement (.ptset rd ra rb) :=
  ⟨opcodeMap[16], by decide, rfl, encodeR_mask_three ..⟩

theorem EncodesRow.ptadd (rd ra rb : Reg) : EncodesRow.Statement (.ptadd rd ra rb) :=
  ⟨opcodeMap[17], by decide, rfl, encodeR_mask_three ..⟩

theorem EncodesRow.ptsub (rd ra rb : Reg) : EncodesRow.Statement (.ptsub rd ra rb) :=
  ⟨opcodeMap[18], by decide, rfl, encodeR_mask_three ..⟩

theorem EncodesRow.ptscale (rd ra rb : Reg) : EncodesRow.Statement (.ptscale rd ra rb) :=
  ⟨opcodeMap[19], by decide, rfl, encodeR_mask_three ..⟩

theorem EncodesRow.ptcross (rd ra rb : Reg) : EncodesRow.Statement (.ptcross rd ra rb) :=
  ⟨opcodeMap[20], by decide, rfl, encodeR_mask_three ..⟩

theorem EncodesRow.ptdot (rd ra rb : Reg) : EncodesRow.Statement (.ptdot rd ra rb) :=
  ⟨opcodeMap[21], by decide, rfl, encodeR_mask_three ..⟩

theorem EncodesRow.ptinrect (rd ra rb : Reg) : EncodesRow.Statement (.ptinrect rd ra rb) :=
  ⟨opcodeMap[22], by decide, rfl, encodeR_mask_three ..⟩

theorem EncodesRow.rcset (rd ra rb rc re : Reg) : EncodesRow.Statement (.rcset rd ra rb rc re) :=
  ⟨opcodeMap[23], by decide, rfl, encodeR_mask_five ..⟩

theorem EncodesRow.rcseto (rd ra rb rc re : Reg) : EncodesRow.Statement (.rcseto rd ra rb rc re) :=
  ⟨opcodeMap[24], by decide, rfl, encodeR_mask_five ..⟩

theorem EncodesRow.rcwidth (rd ra : Reg) : EncodesRow.Statement (.rcwidth rd ra) :=
  ⟨opcodeMap[25], by decide, rfl, encodeR_mask_two ..⟩

theorem EncodesRow.rcheight (rd ra : Reg) : EncodesRow.Statement (.rcheight rd ra) :=
  ⟨opcodeMap[26], by decide, rfl, encodeR_mask_two ..⟩

theorem EncodesRow.rcsetpos (rd ra rb : Reg) : EncodesRow.Statement (.rcsetpos rd ra rb) :=
  ⟨opcodeMap[27], by decide, rfl, encodeR_mask_three ..⟩

theorem EncodesRow.rcsetsize (rd ra rb : Reg) : EncodesRow.Statement (.rcsetsize rd ra rb) :=
  ⟨opcodeMap[28], by decide, rfl, encodeR_mask_three ..⟩

theorem EncodesRow.rcmove (rd ra rb : Reg) : EncodesRow.Statement (.rcmove rd ra rb) :=
  ⟨opcodeMap[29], by decide, rfl, encodeR_mask_three ..⟩

theorem EncodesRow.rcinfl (rd ra rb : Reg) : EncodesRow.Statement (.rcinfl rd ra rb) :=
  ⟨opcodeMap[30], by decide, rfl, encodeR_mask_three ..⟩

theorem EncodesRow.rcinflr (rd ra rb : Reg) : EncodesRow.Statement (.rcinflr rd ra rb) :=
  ⟨opcodeMap[31], by decide, rfl, encodeR_mask_three ..⟩

theorem EncodesRow.rcnorm (rd ra : Reg) : EncodesRow.Statement (.rcnorm rd ra) :=
  ⟨opcodeMap[32], by decide, rfl, encodeR_mask_two ..⟩

theorem EncodesRow.vset (rd ra rb rc : Reg) : EncodesRow.Statement (.vset rd ra rb rc) :=
  ⟨opcodeMap[33], by decide, rfl, encodeR_mask_four ..⟩

theorem EncodesRow.vadd (rd ra rb : Reg) : EncodesRow.Statement (.vadd rd ra rb) :=
  ⟨opcodeMap[34], by decide, rfl, encodeR_mask_three ..⟩

theorem EncodesRow.vsub (rd ra rb : Reg) : EncodesRow.Statement (.vsub rd ra rb) :=
  ⟨opcodeMap[35], by decide, rfl, encodeR_mask_three ..⟩

theorem EncodesRow.vmul (rd ra rb : Reg) : EncodesRow.Statement (.vmul rd ra rb) :=
  ⟨opcodeMap[36], by decide, rfl, encodeR_mask_three ..⟩

theorem EncodesRow.vscale (rd ra rb : Reg) : EncodesRow.Statement (.vscale rd ra rb) :=
  ⟨opcodeMap[37], by decide, rfl, encodeR_mask_three ..⟩

theorem EncodesRow.vdot (rd ra rb : Reg) : EncodesRow.Statement (.vdot rd ra rb) :=
  ⟨opcodeMap[38], by decide, rfl, encodeR_mask_three ..⟩

theorem EncodesRow.vcross (rd ra rb : Reg) : EncodesRow.Statement (.vcross rd ra rb) :=
  ⟨opcodeMap[39], by decide, rfl, encodeR_mask_three ..⟩

end Sys2Proof.Laws
end

