-- ==== Sys2Proof/Laws/Step.lean ====
section
/-! SUPPORT. What a step, a host action and a command write can do. -/

namespace Sys2Proof.Machine

theorem step_nil {s : State} (h : s.script = []) : step s = .next s := by
  simp [step, stepScript, h]

theorem step_cons {s : State} {a : HostAction} {rest : List HostAction} (h : s.script = a :: rest) :
    step s = act a { s with script := rest } := by
  simp [step, stepScript, h]

/-- Everything a write to `CMD` can do. -/
theorem writeCmd_cases (s : State) (w : Word) :
    (s.fault = true ∧ s.writeCmd w = .next s) ∨
      (s.fault = false ∧ (∃ e, decode w = .error e) ∧ s.writeCmd w = .next (s.raise .illegalCommand w)) ∨
      ∃ i, s.fault = false ∧ decode w = .ok i ∧ s.writeCmd w = exec i s := by
  cases hf : s.fault
  · cases hd : decode w with
    | error e => exact .inr (.inl ⟨rfl, ⟨e, rfl⟩, by simp [State.writeCmd, hf, hd]⟩)
    | ok i => exact .inr (.inr ⟨i, rfl, rfl, by simp [State.writeCmd, hf, hd]⟩)
  · exact .inl ⟨rfl, by simp [State.writeCmd, hf]⟩

/-- The step after a command word has been placed runs its command. -/
theorem step_withFetchWord (s : State) (nbits w : Nat) :
    step (s.withFetchWord nbits w) = s.clearFault.writeCmd (tableWord nbits w) := rfl

/-- The location of an aligned four-byte access at its offset (10_state.md R30). -/
@[simp] theorem locate_offset (loc : WindowLoc) : locate loc.offset 4 = .ok loc := by
  cases loc with
  | reg i => revert i; decide
  | cmd => rfl
  | status => rfl
  | faultCmd => rfl

end Sys2Proof.Machine
end

