-- ==== Sys2Proof/Tests/Slice0.lean ====
section
/-! SUPPORT. The model's own tests. Words are written out from the patterns of 30_encoding.md R85; expected results
come from the vectors of spec/95_test_vectors.md. The last part shows, for every statement with hypotheses, concrete
values that meet all of them. -/

namespace Sys2Proof.Tests

open Sys2Proof.Machine

set_option maxRecDepth 20000

/-! ## Well-formedness: each check refuses an ill-formed term -/

theorem test_point_past_end_ill_formed : (Instr.ptadd 15 0 0).wellFormed = false := by decide
theorem test_point_source_past_end_ill_formed : (Instr.ptdot 0 0 15).wellFormed = false := by decide
theorem test_vector_past_end_ill_formed : (Instr.vset 14 0 0 0).wellFormed = false := by decide
theorem test_vector_source_past_end_ill_formed : (Instr.vscale 0 14 15).wellFormed = false := by decide
theorem test_rect_past_end_ill_formed : (Instr.rcset 13 0 0 0 0).wellFormed = false := by decide
theorem test_rect_source_past_end_ill_formed : (Instr.ptinrect 15 14 13).wellFormed = false := by decide
theorem test_highest_groups_well_formed :
    (Instr.ptadd 14 14 14).wellFormed ∧ (Instr.vadd 13 13 13).wellFormed ∧ (Instr.rcinflr 12 12 12).wellFormed ∧
      (Instr.add 15 15 15).wellFormed := by decide

/-! ## Decoding: one word of every row of R85, written from its pattern -/

theorem test_decode_fromint : decode 0b00010000100101100000000000000000 = .ok (.fromint 9 6) := by decide
theorem test_decode_touint : decode 0b00010001100101100000000000000000 = .ok (.touint 9 6) := by decide
theorem test_decode_tofrac : decode 0b00010010100101100000000000000000 = .ok (.tofrac 9 6) := by decide
theorem test_decode_toint : decode 0b00010011100101100000000000000000 = .ok (.toint 9 6) := by decide
theorem test_decode_add : decode 0b00010100100101100011000000000000 = .ok (.add 9 6 3) := by decide
theorem test_decode_sub : decode 0b00010101100101100011000000000000 = .ok (.sub 9 6 3) := by decide
theorem test_decode_mul : decode 0b00010110100101100011000000000000 = .ok (.mul 9 6 3) := by decide
theorem test_decode_mul64 : decode 0b00010111100101100011000000000000 = .ok (.mul64 9 6 3) := by decide
theorem test_decode_div : decode 0b00011000100101100011000000000000 = .ok (.div 9 6 3) := by decide
theorem test_decode_div64 : decode 0b00011001100101100011000000000000 = .ok (.div64 9 6 3) := by decide
theorem test_decode_recimul : decode 0b00011010100101100011000000010101 = .ok (.recimul 9 6 3 21) := by decide
theorem test_decode_lerp16 : decode 0b00100000100101100000000000010101 = .ok (.lerp16 9 6 21) := by decide
theorem test_decode_lerp32 : decode 0b00100001100101100000000000010101 = .ok (.lerp32 9 6 21) := by decide
theorem test_decode_sin : decode 0b00110000100101100000000000000000 = .ok (.sin 9 6) := by decide
theorem test_decode_cos : decode 0b00110001100101100000000000000000 = .ok (.cos 9 6) := by decide
theorem test_decode_recip : decode 0b00110010100101100000000000000000 = .ok (.recip 9 6) := by decide
theorem test_decode_ptset : decode 0b01000000100101100011000000000000 = .ok (.ptset 9 6 3) := by decide
theorem test_decode_ptadd : decode 0b01000001100101100011000000000000 = .ok (.ptadd 9 6 3) := by decide
theorem test_decode_ptsub : decode 0b01000010100101100011000000000000 = .ok (.ptsub 9 6 3) := by decide
theorem test_decode_ptscale : decode 0b01000011100101100011000000000000 = .ok (.ptscale 9 6 3) := by decide
theorem test_decode_ptcross : decode 0b01000100100101100011000000000000 = .ok (.ptcross 9 6 3) := by decide
theorem test_decode_ptdot : decode 0b01000101100101100011000000000000 = .ok (.ptdot 9 6 3) := by decide
theorem test_decode_ptinrect : decode 0b01000110100101100011000000000000 = .ok (.ptinrect 9 6 3) := by decide
theorem test_decode_rcset : decode 0b01010000100101100011111010100000 = .ok (.rcset 9 6 3 14 10) := by decide
theorem test_decode_rcseto : decode 0b01010001100101100011111010100000 = .ok (.rcseto 9 6 3 14 10) := by decide
theorem test_decode_rcwidth : decode 0b01010010100101100000000000000000 = .ok (.rcwidth 9 6) := by decide
theorem test_decode_rcheight : decode 0b01010011100101100000000000000000 = .ok (.rcheight 9 6) := by decide
theorem test_decode_rcsetpos : decode 0b01010100100101100011000000000000 = .ok (.rcsetpos 9 6 3) := by decide
theorem test_decode_rcsetsize : decode 0b01010101100101100011000000000000 = .ok (.rcsetsize 9 6 3) := by decide
theorem test_decode_rcmove : decode 0b01010110100101100011000000000000 = .ok (.rcmove 9 6 3) := by decide
theorem test_decode_rcinfl : decode 0b01010111100101100011000000000000 = .ok (.rcinfl 9 6 3) := by decide
theorem test_decode_rcinflr : decode 0b01011000100101100011000000000000 = .ok (.rcinflr 9 6 3) := by decide
theorem test_decode_rcnorm : decode 0b01011001100101100000000000000000 = .ok (.rcnorm 9 6) := by decide
theorem test_decode_vset : decode 0b01100000100101100011111000000000 = .ok (.vset 9 6 3 14) := by decide
theorem test_decode_vadd : decode 0b01100001100101100011000000000000 = .ok (.vadd 9 6 3) := by decide
theorem test_decode_vsub : decode 0b01100010100101100011000000000000 = .ok (.vsub 9 6 3) := by decide
theorem test_decode_vmul : decode 0b01100011100101100011000000000000 = .ok (.vmul 9 6 3) := by decide
theorem test_decode_vscale : decode 0b01100100100101100011000000000000 = .ok (.vscale 9 6 3) := by decide
theorem test_decode_vdot : decode 0b01100101100101100011000000000000 = .ok (.vdot 9 6 3) := by decide
theorem test_decode_vcross : decode 0b01100110100101100011000000000000 = .ok (.vcross 9 6 3) := by decide

/-! ## Words that are no command (95_test_vectors.md section 8) -/

theorem test_all_zero_word_reserved : decode 0x00000000 = .error .reservedOpcode := by decide
theorem test_all_ones_word_reserved : decode 0xFFFFFFFF = .error .reservedOpcode := by decide
theorem test_opcodes_around_the_map_reserved :
    ([0x0F120000, 0x1B123000, 0x22120007, 0x33120000, 0x47602000, 0x5A440000, 0x67C48000, 0x70000000] : List Word).all fun w =>
      decide (decode w = .error .reservedOpcode) := by decide
theorem test_unused_bits_illegal :
    ([0x10120001, 0x10123000, 0x14123100, 0x14123010, 0x20120027, 0x20123007, 0x1A123810, 0x59440100] : List Word).all fun w =>
      decide (decode w = .error .unusedFieldSet) := by decide
theorem test_groups_past_end_illegal :
    ([0x41F02000, 0x4102F000, 0x59D00000, 0x590D0000, 0x61E04000, 0x60E01200, 0x50D01230, 0x54C0F000] : List Word).all fun w =>
      decide (decode w = .error .groupPastEnd) := by decide
theorem test_rect_source_at_13_illegal : decode 0x46F0D000 = .error .groupPastEnd := by decide

/-! ## The table interface and the bytes of a word -/

theorem test_table_word : decodeTableWord 32 0x1A123010 = some (.recimul 1 2 3 16) := by decide
theorem test_table_word_refused : decodeTableWord 32 0x1A123810 = none := by decide
theorem test_bytes_little_endian : bytesOfWord 0x14312000 = [0x00, 0x20, 0x31, 0x14] := by decide

/-! ## One step per instruction -/

/-- The state after reset with the listed registers written. -/
def place (l : List (Reg × Word)) : State := l.foldl (fun s p => s.write p.1 p.2) State.reset

/-- The word written to `CMD` from `place l` leaves the registers `after` with no fault, all others as they were. -/
def gives (w : Nat) (l after : List (Reg × Word)) : Bool :=
  match step ((place l).withFetchWord 32 w) with
  | .next t => !t.fault && (List.finRange 16).all fun r => t.reg r == ((after.lookup r).getD ((place l).reg r))
  | _ => false

/-- The word written to `CMD` from `place l` leaves the registers as they were and STATUS at `status`, with the word
in FAULTCMD. -/
def faults (w : Nat) (l : List (Reg × Word)) (status : Word) : Bool :=
  match step ((place l).withFetchWord 32 w) with
  | .next t => t.statusWord == status && t.faultCmd == .ofNat 32 w && t.regs == (place l).regs
  | _ => false

theorem test_fromint_scales_minus_one : gives 0x10120000 [(2, 0xFFFFFFFF)] [(1, 0xFFFFFF00)] := by decide
theorem test_fromint_wraps_at_2_23 : gives 0x10120000 [(2, 0x800000)] [(1, 0x80000000)] := by decide
theorem test_touint_floors_negative : gives 0x11120000 [(2, 0xFFFFFE80)] [(1, 0xFFFFFFFE)] := by decide
theorem test_touint_most_negative : gives 0x11120000 [(2, 0x80000000)] [(1, 0xFF800000)] := by decide
theorem test_tofrac_of_negative : gives 0x12120000 [(2, 0xFFFFFE80)] [(1, 0x80)] := by decide
theorem test_tofrac_all_ones : gives 0x12120000 [(2, 0xFFFFFFFF)] [(1, 0xFF)] := by decide
theorem test_toint_toward_zero : gives 0x13120000 [(2, 0xFFFFFE80)] [(1, 0xFFFFFFFF)] := by decide
theorem test_toint_small_negative : gives 0x13120000 [(2, 0xFFFFFF01)] [(1, 0x0)] := by decide
theorem test_add_example : gives 0x14123000 [(2, 0x180), (3, 0x280)] [(1, 0x400)] := by decide
theorem test_add_wraps : gives 0x14123000 [(2, 0x7FFFFFFF), (3, 0x1)] [(1, 0x80000000)] := by decide
theorem test_sub_example : gives 0x15123000 [(2, 0x180), (3, 0x280)] [(1, 0xFFFFFF00)] := by decide
theorem test_sub_wraps : gives 0x15123000 [(2, 0x80000000), (3, 0x1)] [(1, 0x7FFFFFFF)] := by decide
theorem test_mul_keeps_32_bits : gives 0x16123000 [(2, 0xB505), (3, 0xB505)] [(1, 0xFF800012)] := by decide
theorem test_mul_floors : gives 0x16123000 [(2, 0xFFFFFFFF), (3, 0x1)] [(1, 0xFFFFFFFF)] := by decide
theorem test_mul64_widened : gives 0x17123000 [(2, 0xB505), (3, 0xB505)] [(1, 0x800012)] := by decide
theorem test_mul64_low_bits : gives 0x17123000 [(2, 0x7FFFFFFF), (3, 0x7FFFFFFF)] [(1, 0xFF000000)] := by decide
theorem test_div_toward_zero : gives 0x18123000 [(2, 0xFFFFFF00), (3, 0x300)] [(1, 0xFFFFFFAB)] := by decide
theorem test_div_by_zero : faults 0x18123000 [(2, 0x100), (3, 0x0)] 0x00000021 := by decide
theorem test_div64_widened : gives 0x19123000 [(2, 0x800000), (3, 0x100)] [(1, 0x800000)] := by decide
theorem test_div64_zero_by_zero : faults 0x19123000 [(2, 0x0), (3, 0x0)] 0x00000021 := by decide
theorem test_recimul_floors : gives 0x1A123010 [(2, 0xFFFFFF9C), (3, 0x5556)] [(1, 0xFFFFFFDE)] := by decide
theorem test_recimul_shift_31 : gives 0x1A12301F [(2, 0x7FFFFFFF), (3, 0x7FFFFFFF)] [(1, 0x7FFFFFFE)] := by decide
theorem test_lerp16_falling_floor : gives 0x20120007 [(2, 0x6001)] [(1, 0xB4F)] := by decide
theorem test_lerp16_index_513 : faults 0x20120007 [(2, 0x10080)] 0x00000041 := by decide
theorem test_lerp32_wide_product : gives 0x21120014 [(2, 0x180000)] [(1, 0xC000)] := by decide
theorem test_lerp32_index_256 : faults 0x21120008 [(2, 0x10000)] 0x00000041 := by decide
theorem test_sin_three_quarters : gives 0x30120000 [(2, 0xC000)] [(1, 0xFFFFF000)] := by decide
theorem test_sin_ignores_low_bits : gives 0x30120000 [(2, 0x403F)] [(1, 0x1000)] := by decide
theorem test_cos_twelfth : gives 0x31120000 [(2, 0x1555)] [(1, 0xDEC)] := by decide
theorem test_cos_wraps_inside_table : gives 0x31120000 [(2, 0xFFFF)] [(1, 0x1000)] := by decide
theorem test_recip_of_7 : gives 0x32120000 [(2, 0x7)] [(1, 0x2492)] := by decide
theorem test_recip_of_256 : faults 0x32120000 [(2, 0x100)] 0x00000031 := by decide
theorem test_ptset_swaps : gives 0x40232000 [(2, 0x7), (3, 0xFFFFFFF7)] [(2, 0xFFFFFFF7), (3, 0x7)] := by decide
theorem test_ptset_copies : gives 0x40023000 [(2, 0x7), (3, 0xFFFFFFF7)] [(0, 0x7), (1, 0xFFFFFFF7)] := by decide
theorem test_ptadd_overlap : gives 0x41544000 [(4, 0xA), (5, 0x14)] [(5, 0x14), (6, 0x28)] := by decide
theorem test_ptadd_wraps :
    gives 0x41846000 [(4, 0x7FFFFFFF), (5, 0x80000000), (6, 0x1), (7, 0xFFFFFFFF)] [(8, 0x80000000), (9, 0x7FFFFFFF)] := by decide
theorem test_ptsub_example :
    gives 0x42846000 [(4, 0xA), (5, 0x14), (6, 0x1), (7, 0x2)] [(8, 0x9), (9, 0x12)] := by decide
theorem test_ptsub_wraps :
    gives 0x42846000 [(4, 0x80000000), (5, 0x0), (6, 0x1), (7, 0x1)] [(8, 0x7FFFFFFF), (9, 0xFFFFFFFF)] := by decide
theorem test_ptscale_own_scalar : gives 0x43445000 [(4, 0xA), (5, 0x14)] [(4, 0xC8), (5, 0x190)] := by decide
theorem test_ptscale_wraps :
    gives 0x4384A000 [(4, 0x10000), (5, 0x3), (10, 0x10000)] [(8, 0x0), (9, 0x30000)] := by decide
theorem test_ptcross_example :
    gives 0x44B46000 [(4, 0x3), (5, 0x4), (6, 0xFFFFFFFC), (7, 0x3)] [(11, 0x19)] := by decide
theorem test_ptcross_wraps :
    gives 0x44B46000 [(4, 0x10000), (5, 0x10000), (6, 0xFFFF0000), (7, 0x10000)] [(11, 0x0)] := by decide
theorem test_ptdot_example : gives 0x45B46000 [(4, 0xA), (5, 0x14), (6, 0x1), (7, 0x2)] [(11, 0x32)] := by decide
theorem test_ptdot_wraps : gives 0x45B46000 [(4, 0x10000), (5, 0x0), (6, 0x10000), (7, 0x0)] [(11, 0x0)] := by decide
theorem test_ptinrect_negative_inside :
    gives 0x46602000 [(0, 0xFFFFFFFB), (1, 0xFFFFFFFB), (2, 0xFFFFFFF6), (3, 0xFFFFFFF6), (4, 0x0), (5, 0x0)] [(6, 0x1)] := by decide
theorem test_ptinrect_bottom_outside :
    gives 0x46602000 [(0, 0x5), (1, 0xA), (2, 0x0), (3, 0x0), (4, 0xA), (5, 0xA)] [(6, 0x0)] := by decide
theorem test_rcset_reverses :
    gives 0x50032100 [(0, 0xA), (1, 0x14), (2, 0x1E), (3, 0x28)] [(0, 0x28), (1, 0x1E), (2, 0x14), (3, 0xA)] := by decide
theorem test_rcset_edges :
    gives 0x50401230 [(0, 0xA), (1, 0x14), (2, 0x1E), (3, 0x28)] [(4, 0xA), (5, 0x14), (6, 0x1E), (7, 0x28)] := by decide
theorem test_rcseto_wraps :
    gives 0x51401230 [(0, 0x7FFFFFFF), (1, 0x0), (2, 0x1), (3, 0xFFFFFFFB)] [(4, 0x7FFFFFFF), (5, 0x0), (6, 0x80000000), (7, 0xFFFFFFFB)] := by decide
theorem test_rcseto_example :
    gives 0x51401230 [(0, 0xA), (1, 0x14), (2, 0x1E), (3, 0x28)] [(4, 0xA), (5, 0x14), (6, 0x28), (7, 0x3C)] := by decide
theorem test_rcwidth_wraps :
    gives 0x52040000 [(4, 0x80000000), (5, 0x0), (6, 0x7FFFFFFF), (7, 0x0)] [(0, 0xFFFFFFFF)] := by decide
theorem test_rcwidth_inverted :
    gives 0x52040000 [(4, 0xA), (5, 0xA), (6, 0x0), (7, 0x0)] [(0, 0xFFFFFFF6)] := by decide
theorem test_rcheight_example : gives 0x53040000 [(4, 0xA), (5, 0x14), (6, 0x28), (7, 0x3C)] [(0, 0x28)] := by decide
theorem test_rcheight_inverted :
    gives 0x53040000 [(4, 0xA), (5, 0xA), (6, 0x0), (7, 0x0)] [(0, 0xFFFFFFF6)] := by decide
theorem test_rcsetpos_negative :
    gives 0x54840000 [(4, 0xA), (5, 0x14), (6, 0x28), (7, 0x3C), (0, 0xFFFFFFFB), (1, 0xFFFFFFFB)] [(8, 0xFFFFFFFB), (9, 0xFFFFFFFB), (10, 0x19), (11, 0x23)] := by decide
theorem test_rcsetpos_example :
    gives 0x54840000 [(4, 0xA), (5, 0x14), (6, 0x28), (7, 0x3C), (0, 0x64), (1, 0xC8)] [(8, 0x64), (9, 0xC8), (10, 0x82), (11, 0xF0)] := by decide
theorem test_rcsetsize_negative_height :
    gives 0x55840000 [(4, 0xA), (5, 0x14), (6, 0x28), (7, 0x3C), (0, 0x0), (1, 0xFFFFFFFF)] [(8, 0xA), (9, 0x14), (10, 0xA), (11, 0x13)] := by decide
theorem test_rcsetsize_example :
    gives 0x55840000 [(4, 0xA), (5, 0x14), (6, 0x28), (7, 0x3C), (0, 0xF), (1, 0x1B)] [(8, 0xA), (9, 0x14), (10, 0x19), (11, 0x2F)] := by decide
theorem test_rcmove_own_corner :
    gives 0x56444000 [(4, 0xA), (5, 0x14), (6, 0x28), (7, 0x3C)] [(4, 0x14), (5, 0x28), (6, 0x32), (7, 0x50)] := by decide
theorem test_rcmove_wraps :
    gives 0x56840000 [(4, 0x7FFFFFF0), (5, 0x0), (6, 0x7FFFFFFF), (7, 0x5), (0, 0x10), (1, 0x0)] [(8, 0x80000000), (9, 0x0), (10, 0x8000000F), (11, 0x5)] := by decide
theorem test_rcinfl_wraps_left :
    gives 0x57840000 [(4, 0xA), (5, 0x14), (6, 0x28), (7, 0x3C), (0, 0x14), (1, 0x0)] [(8, 0xFFFFFFF6), (9, 0x14), (10, 0x3C), (11, 0x3C)] := by decide
theorem test_rcinfl_shrinks :
    gives 0x57840000 [(4, 0xA), (5, 0x14), (6, 0x28), (7, 0x3C), (0, 0xFFFFFFFE), (1, 0xFFFFFFFD)] [(8, 0xC), (9, 0x17), (10, 0x26), (11, 0x39)] := by decide
theorem test_rcinflr_itself :
    gives 0x58444000 [(4, 0xA), (5, 0x14), (6, 0x28), (7, 0x3C)] [(4, 0x14), (5, 0x28), (6, 0x50), (7, 0x78)] := by decide
theorem test_rcinflr_fieldwise :
    gives 0x58840000 [(4, 0xA), (5, 0x14), (6, 0x28), (7, 0x3C), (0, 0xFFFFFFFF), (1, 0xFFFFFFFE), (2, 0x3), (3, 0x4)] [(8, 0x9), (9, 0x12), (10, 0x2B), (11, 0x40)] := by decide
theorem test_rcnorm_signed :
    gives 0x59840000 [(4, 0x1), (5, 0x0), (6, 0xFFFFFFFF), (7, 0x0)] [(8, 0xFFFFFFFF), (9, 0x0), (10, 0x1), (11, 0x0)] := by decide
theorem test_rcnorm_at_r12 :
    gives 0x59CC0000 [(12, 0x4), (13, 0x3), (14, 0x2), (15, 0x1)] [(12, 0x2), (13, 0x1), (14, 0x4), (15, 0x3)] := by decide
theorem test_vset_reverses :
    gives 0x60021000 [(0, 0x1), (1, 0x2), (2, 0x3)] [(0, 0x3), (1, 0x2), (2, 0x1)] := by decide
theorem test_vset_copies :
    gives 0x60401200 [(0, 0x100), (1, 0xFFFFFF80), (2, 0x240)] [(4, 0x100), (5, 0xFFFFFF80), (6, 0x240)] := by decide
theorem test_vadd_overlap :
    gives 0x61546000 [(4, 0x100), (5, 0x200), (6, 0x300), (7, 0x400), (8, 0x500)] [(5, 0x400), (6, 0x600), (7, 0x800)] := by decide
theorem test_vadd_at_r13 :
    gives 0x61DD0000 [(13, 0x100), (14, 0x100), (15, 0x100), (0, 0x200), (1, 0x200), (2, 0x200)] [(13, 0x300), (14, 0x300), (15, 0x300)] := by decide
theorem test_vsub_example :
    gives 0x62C48000 [(4, 0x180), (5, 0xFFFFFE00), (6, 0x80), (8, 0x200), (9, 0x40), (10, 0xFFFFFC00)] [(12, 0xFFFFFF80), (13, 0xFFFFFDC0), (14, 0x480)] := by decide
theorem test_vsub_in_place :
    gives 0x62448000 [(4, 0x180), (5, 0xFFFFFE00), (6, 0x80), (8, 0x200), (9, 0x40), (10, 0xFFFFFC00)] [(4, 0xFFFFFF80), (5, 0xFFFFFDC0), (6, 0x480)] := by decide
theorem test_vmul_narrow :
    gives 0x63C48000 [(4, 0x1000000), (5, 0xB505), (6, 0x10000), (8, 0x100), (9, 0xB505), (10, 0x10000)] [(12, 0x0), (13, 0xFF800012), (14, 0x0)] := by decide
theorem test_vmul_floors :
    gives 0x63C48000 [(4, 0x1), (5, 0x1), (6, 0x1), (8, 0x1), (9, 0xFFFFFFFF), (10, 0x80)] [(12, 0x0), (13, 0xFFFFFFFF), (14, 0x0)] := by decide
theorem test_vscale_own_scalar :
    gives 0x64444000 [(4, 0x180), (5, 0xFFFFFE00), (6, 0x80)] [(4, 0x240), (5, 0xFFFFFD00), (6, 0xC0)] := by decide
theorem test_vscale_example :
    gives 0x64C48000 [(4, 0x180), (5, 0xFFFFFE00), (6, 0x80), (8, 0xFFFFFD80)] [(12, 0xFFFFFC40), (13, 0x500), (14, 0xFFFFFEC0)] := by decide
theorem test_vdot_example :
    gives 0x65C48000 [(4, 0x180), (5, 0xFFFFFE00), (6, 0x80), (8, 0x200), (9, 0x40), (10, 0xFFFFFC00)] [(12, 0x80)] := by decide
theorem test_vdot_no_wrap :
    gives 0x65C48000 [(4, 0x8000), (5, 0x8000), (6, 0x8000), (8, 0xFFFF), (9, 0xFFFF), (10, 0xFFFF)] [(12, 0x17FFE80)] := by decide
theorem test_vcross_in_place :
    gives 0x66448000 [(4, 0x180), (5, 0xFFFFFE00), (6, 0x80), (8, 0x200), (9, 0x40), (10, 0xFFFFFC00)] [(4, 0x7E0), (5, 0x700), (6, 0x460)] := by decide
theorem test_vcross_y_cross_x :
    gives 0x66C48000 [(4, 0x0), (5, 0x100), (6, 0x0), (8, 0x100), (9, 0x0), (10, 0x0)] [(12, 0x0), (13, 0x0), (14, 0xFFFFFF00)] := by decide

/-! ## The fault protocol (95_test_vectors.md section 9) -/

/-- `x[0]` = 1.0, `x[1]` = 0, `x[2]` = 0xDEADBEEF, and the host's script. -/
def before (acts : List HostAction) : State :=
  { place [(0, 0x100), (2, 0xDEADBEEF)] with script := acts }

/-- The same with the fault of `DIV r2, r0, r1` pending. -/
def pending (acts : List HostAction) : State := (before acts).raise .divideByZero 0x18201000

/-- What the fault record and the registers are after one step. -/
def record (s : State) : Option (Word × Word × Vector Word 16) :=
  match step s with
  | .next t => some (t.statusWord, t.faultCmd, t.regs)
  | _ => none

theorem test_F1_fault_entry :
    record (before [hostWriteCmd 0x18201000]) = some (0x21, 0x18201000, (before []).regs) := by decide
theorem test_F2_command_discarded :
    record (pending [hostWriteCmd 0x14200000]) = some (0x21, 0x18201000, (before []).regs) := by decide
theorem test_F3_illegal_word_discarded :
    record (pending [hostWriteCmd 0xFFFFFFFF]) = some (0x21, 0x18201000, (before []).regs) := by decide
theorem test_F4_register_write_works :
    record (pending [hostWriteReg 1 0x200]) = some (0x21, 0x18201000, (before []).regs.set 1 0x200) := by
  decide
theorem test_F5_register_read_works :
    (match step (pending [hostReadReg 2]) with | .next t => t.returned | _ => []) = [0xDEADBEEF] := by decide
theorem test_F6_status_write_0 :
    record (pending [.write .status 0]) = some (0x21, 0x18201000, (before []).regs) := by decide
theorem test_F7_cause_read_only :
    record (pending [.write .status 0xF0]) = some (0x21, 0x18201000, (before []).regs) := by decide
theorem test_F8_clear : record (pending [hostClearFault]) = some (0, 0, (before []).regs) := by decide
theorem test_F10_no_fault_to_clear :
    record (before [.write .status 0xFFFFFFFF]) = some (0, 0, (before []).regs) := by decide
theorem test_F11_read_cmd :
    (match step (before [.read .cmd]) with | .next t => t.returned | _ => []) = [0] := by decide
theorem test_F12_illegal_wins_over_zero_divisor :
    record (before [hostWriteCmd 0x18201001]) = some (0x11, 0x18201001, (before []).regs) := by decide
theorem test_F13_illegal_wins_over_domain :
    record (before [hostWriteCmd 0x32F00001]) = some (0x11, 0x32F00001, (before []).regs) := by decide
theorem test_F14_reset :
    record (pending [hostReset]) = some (0, 0, (pending []).resetGpr) := by decide
theorem test_status_read :
    (match step (pending [hostReadStatus]) with | .next t => t.returned | _ => []) = [0x21] := by decide
theorem test_faultcmd_read :
    (match step (pending [hostReadFaultCmd]) with | .next t => t.returned | _ => []) = [0x18201000] := by
  decide
theorem test_idle : record (before []) = some (0, 0, (before []).regs) := by decide

/-! ## The host's bus (10_state.md R30, 20_memory.md R60, R61) -/

theorem test_bus_read_last_location :
    (match step (pending [.memRead 0x48 4]) with | .next t => t.returned | _ => []) = [0x18201000] := by decide
theorem test_bus_write_little_endian :
    record (before [.memWrite 0x04 [0x34, 0x12, 0x00, 0xFF]]) = some (0, 0, (before []).regs.set 1 0xFF001234) := by
  decide
theorem test_bus_misaligned_refused : locate 0x42 4 = .error (.unsupportedAccess 0x42 4) := by decide
theorem test_bus_narrow_refused : locate 0x40 2 = .error (.unsupportedAccess 0x40 2) := by decide
theorem test_bus_past_window_refused : locate 0x4C 4 = .error (.outsideWindow 0x4C) := by decide

/-! ## The assembler and the host-side functions (30_encoding.md section 5, 40_fixedpoint.md R122, R124) -/

theorem test_line_command : readLine "LERP16 r2, r1, #7 ; comment" = some [hostWriteCmd 0x20210007] := by
  decide
theorem test_line_in_place : readLine "VSCALEEQ r4, r8" = some [hostWriteCmd 0x64448000] := by decide
theorem test_line_constant : readLine "wreg r3, RECIPK(3,16)" = some [hostWriteReg 3 0x5556] := by decide
theorem test_line_constant_hexadecimal :
    readLine "wreg r3, RECIPK(0x3, 0x10)" = some [hostWriteReg 3 0x5556] := by decide
theorem test_line_pattern : readLine "wreg r3, 0xFFFFFEc0" = some [hostWriteReg 3 0xFFFFFEC0] := by decide
theorem test_line_illegal_register : readLine "ADD r1, r2, r16" = none := by decide
theorem test_recipk_examples :
    recipK 3 16 = some 21846 ∧ recipK 10 16 = some 6554 ∧ recipK 7 8 = some 37 ∧ recipK 1 31 = none := by decide
theorem test_from_float_examples :
    fromFloat (5 / 2) = some 0x280 ∧ fromFloat (-3 / 2) = some 0xFFFFFE80 ∧
      fromFloat (999 / 1000) = some 255 ∧ fromFloat (-999 / 1000) = some 0xFFFFFF01 := by decide +kernel

/-! ## Witnesses: concrete values that meet the hypotheses of each statement, all together -/

theorem witness_DecodeOfEncodeIsTheCommand :
    (Instr.rcinflr 12 12 12).wellFormed = true ∧ (Instr.vcross 13 13 13).wellFormed = true ∧
      (Instr.ptadd 14 14 14).wellFormed = true ∧ (Instr.recimul 15 15 15 31).wellFormed = true := by decide

theorem witness_EncodeOfDecodeIsTheWord :
    decode 0x58CCC000 = .ok (.rcinflr 12 12 12) ∧ decode 0x1AFFF01F = .ok (.recimul 15 15 15 31) := by decide

theorem witness_DecoderAcceptsExactlyTheOpcodeMap :
    (⟨"RCNORM", 0x59000000, 0xFF00FFFF, [(.rect, 20), (.rect, 16)]⟩ : OpcodeRow) ∈ opcodeMap ∧
      decode 0x1A12301F = .ok (.recimul 1 2 3 31) ∧ decode 0x20120000 = .ok (.lerp16 1 2 0) ∧
      decode 0x2112001F = .ok (.lerp32 1 2 31) := by decide

/-- A reserved opcode, a set unused field, and a group past the end. -/
theorem witness_IllegalWordEntersIllegalCommand : ([0x67000000, 0x10120001, 0x59D00000] : List Word).all fun w =>
    (before [hostWriteCmd w]).script = hostWriteCmd w :: [] ∧ (before [hostWriteCmd w]).fault = false ∧
      ∀ row ∈ opcodeMap, row.admits w = false := by decide

/-- The ends of the reserved ranges. -/
theorem witness_ReservedOpcodesRaiseIllegalCommand :
    ([0x00000000, 0x0F000000, 0x1B000000, 0x1F000000, 0x22000000, 0x2F000000, 0x33000000, 0x3F000000,
      0x47000000, 0x4F000000, 0x5A000000, 0x5F000000, 0x67000000, 0xFFFFFFFF] : List Word).all fun w =>
      (before [hostWriteCmd w]).script = hostWriteCmd w :: [] ∧ (before [hostWriteCmd w]).fault = false ∧
        ((opcodeField w).toNat ≤ 0x0F ∨ (0x1B ≤ (opcodeField w).toNat ∧ (opcodeField w).toNat ≤ 0x1F) ∨
          (0x22 ≤ (opcodeField w).toNat ∧ (opcodeField w).toNat ≤ 0x2F) ∨
          (0x33 ≤ (opcodeField w).toNat ∧ (opcodeField w).toNat ≤ 0x3F) ∨
          (0x47 ≤ (opcodeField w).toNat ∧ (opcodeField w).toNat ≤ 0x4F) ∨
          (0x5A ≤ (opcodeField w).toNat ∧ (opcodeField w).toNat ≤ 0x5F) ∨ 0x67 ≤ (opcodeField w).toNat) := by decide

theorem witness_GroupPastTheEndRaisesIllegalCommand :
    (Instr.ptset 15 0 0).wellFormed = false ∧ (Instr.vset 14 0 0 0).wellFormed = false ∧
      (Instr.rcnorm 13 12).wellFormed = false := by decide

theorem witness_AssemblerReadsWhatItWrites :
    (Instr.rcset 12 15 0 9 10).wellFormed = true ∧ (Instr.lerp32 15 0 31).wellFormed = true := by decide

/-- The three cases: a fault pending, an illegal word, a legal word. -/
theorem witness_StepRunsTheDecodedCommand :
    ((pending [hostWriteCmd 0x14200000]).script = hostWriteCmd 0x14200000 :: [] ∧
      (pending [hostWriteCmd 0x14200000]).fault = true) ∧
    ((before [hostWriteCmd 0]).script = hostWriteCmd 0 :: [] ∧ (before [hostWriteCmd 0]).fault = false ∧
      decode 0 = .error .reservedOpcode) ∧
    ((before [hostWriteCmd 0x18201000]).script = hostWriteCmd 0x18201000 :: [] ∧
      (before [hostWriteCmd 0x18201000]).fault = false ∧ decode 0x18201000 = .ok (.div 2 0 1)) := by decide

theorem witness_PendingFaultDiscardsCommands :
    (pending []).fault = true ∧
    (pending [hostWriteCmd 0xFFFFFFFF]).script = hostWriteCmd 0xFFFFFFFF :: [] ∧
    (pending [hostWriteReg 15 1]).script = hostWriteReg 15 1 :: [] ∧
    (pending [hostReadReg 15]).script = hostReadReg 15 :: [] ∧
    (pending [hostWriteCmd 0]).fault = true ∧ (pending [hostWriteReg 15 1]).fault = true ∧
    (pending [hostReadReg 15]).fault = true := by decide

theorem witness_HostWriteRegWritesOneRegister :
    (before [hostWriteReg 15 7, hostReadReg 15]).script = hostWriteReg 15 7 :: [hostReadReg 15] ∧
      [hostReadReg 15] = hostReadReg 15 :: [] := by decide

theorem witness_HostReadsReturnTheWindowAndChangeNothing :
    ∀ loc ∈ [WindowLoc.reg 0, .reg 15, .cmd, .status, .faultCmd],
      (pending [.read loc]).script = .read loc :: [] := by decide

/-- Bit 0 set, bit 0 clear, and no fault pending in a sound record. -/
theorem witness_StatusWriteClearsTheFault :
    ((pending [.write .status 1]).script = .write .status 1 :: [] ∧ (1 : Word).getLsbD 0 = true) ∧
    ((pending [.write .status 0xFFFFFFFE]).script = .write .status 0xFFFFFFFE :: [] ∧
      (0xFFFFFFFE : Word).getLsbD 0 = false) ∧
    ((before [.write .status 1]).script = .write .status 1 :: [] ∧
      (before [.write .status 1]).faultRecordSound = true ∧ (before [.write .status 1]).fault = false) := by
  decide

theorem witness_HostResetRestoresTheResetState :
    (pending [hostReset]).script = hostReset :: [] ∧ (before [hostReset]).script = hostReset :: [] := by decide

/-- Width, alignment and range each violated alone, and the ends of the window. -/
theorem witness_OnlyAlignedWordsReachTheWindow :
    ((2 : Nat) ≠ 4 ∨ 0x40 % 4 ≠ 0 ∨ 0x4C ≤ 0x40) ∧ ((4 : Nat) ≠ 4 ∨ 0x42 % 4 ≠ 0 ∨ 0x4C ≤ 0x42) ∧
    ((4 : Nat) ≠ 4 ∨ 0x4C % 4 ≠ 0 ∨ 0x4C ≤ 0x4C) ∧ (([] : List Byte).length ≠ 4 ∨ 0 % 4 ≠ 0 ∨ 0x4C ≤ 0) ∧
    (0 % 4 = 0 ∧ 0 < 0x4C) ∧ (0x48 % 4 = 0 ∧ 0x48 < 0x4C) := by decide

theorem witness_StepPerformsExactlyOneHostAction :
    ((before [hostReadReg 2]).script = hostReadReg 2 :: [] ∧
      ∃ t, step (before [hostReadReg 2]) = .next t ∧ t.returned = [0xDEADBEEF]) ∧ (before []).script = [] :=
  ⟨⟨rfl, _, rfl, by decide⟩, rfl⟩

/-- Two states that agree on the sources of `DIV r2, r0, r1` and differ elsewhere, once with and once without a
fault. -/
theorem witness_CommandsReadOnlyTheirSources :
    (∀ r ∈ (Instr.div 2 0 1).sourceRegs, (before []).reg r = (place [(0, 0x100), (15, 9)]).reg r) ∧
    (before []).fault = false ∧ (place [(0, 0x100), (15, 9)]).fault = false ∧
    (∃ t, exec (.div 2 0 1) (before []) = .next t ∧ t.fault = true) ∧
    (∃ t, exec (.div 2 0 1) (place [(0, 0x100), (15, 9)]) = .next t ∧ t.fault = true) ∧
    (∀ r ∈ (Instr.add 2 0 1).sourceRegs, (before []).reg r = (place [(0, 0x100), (15, 9)]).reg r) ∧
    (∃ t, exec (.add 2 0 1) (before []) = .next t ∧ t.fault = false) ∧
    (∃ t, exec (.add 2 0 1) (place [(0, 0x100), (15, 9)]) = .next t ∧ t.fault = false) :=
  ⟨by decide, by decide, by decide, ⟨_, rfl, rfl⟩, ⟨_, rfl, rfl⟩, by decide,
    ⟨_, rfl, rfl⟩, ⟨_, rfl, rfl⟩⟩

/-- Each premise at a boundary: divisor 0; arguments 0 and 256; indices 513, 0 and 256; and a form with none. -/
theorem witness_OnlyFiveCommandsCanFault :
    (Instr.div 2 0 1).wellFormed = true ∧ (before []).fault = false ∧ (before []).reg 1 = 0 ∧
    ((before []).reg 1).toNat < 1 ∧ 255 < ((before []).reg 0).toNat ∧
    512 < ((place [(0, 0x201)]).reg 0).toNat / 2 ^ (0 : Imm5).val ∧
    ((place [(0, 0x80)]).reg 0).toNat / 2 ^ (8 : Imm5).val < 1 ∧
    255 < ((place [(0, 0x10000)]).reg 0).toNat / 2 ^ (8 : Imm5).val ∧
    (Instr.rcnorm 12 12).wellFormed = true := by decide

theorem witness_EveryStepKeepsTheFaultRecordSound :
    ((before [hostWriteCmd 0x18201000]).faultRecordSound = true ∧
      ∃ t, step (before [hostWriteCmd 0x18201000]) = .next t ∧ t.fault = true) ∧
    ((pending [hostClearFault]).faultRecordSound = true ∧
      ∃ t, step (pending [hostClearFault]) = .next t ∧ t.fault = false) :=
  ⟨⟨by decide, _, rfl, by decide⟩, by decide, _, rfl, rfl⟩

/-- Both ends of the exact range, and 2^23. -/
theorem witness_FromintScalesBy256 :
    (-2 ^ 23 ≤ ((place [(2, 0xFF800000)]).reg 2).toInt ∧ ((place [(2, 0xFF800000)]).reg 2).toInt < 2 ^ 23) ∧
    (-2 ^ 23 ≤ ((place [(2, 0x7FFFFF)]).reg 2).toInt ∧ ((place [(2, 0x7FFFFF)]).reg 2).toInt < 2 ^ 23) ∧
    ((place [(2, 0x800000)]).reg 2).toInt = 2 ^ 23 := by decide

theorem witness_TouintAndTofracSplitTheOperand : 0 ≤ ((place [(2, 0x7FFFFFFF)]).reg 2).toInt := by decide

theorem witness_TointRoundsTowardZero :
    (-255 ≤ ((place [(2, 0xFFFFFF01)]).reg 2).toInt ∧ ((place [(2, 0xFFFFFF01)]).reg 2).toInt ≤ 255) ∧
    (-255 ≤ ((place [(2, 0xFF)]).reg 2).toInt ∧ ((place [(2, 0xFF)]).reg 2).toInt ≤ 255) := by decide

theorem witness_ConversionLaws :
    (-2 ^ 23 ≤ ((place [(2, 0xFF800000)]).reg 2).toInt ∧ ((place [(2, 0xFF800000)]).reg 2).toInt < 2 ^ 23 ∧
      ∃ t u v, exec (.fromint 1 2) (place [(2, 0xFF800000)]) = .next t ∧ exec (.toint 3 1) t = .next u ∧
        exec (.touint 3 1) t = .next v) ∧
    (∃ u v, exec (.touint 1 2) (place [(2, 0xFFFFFE80)]) = .next u ∧
      exec (.toint 1 2) (place [(2, 0xFFFFFE80)]) = .next v ∧ u.reg 1 ≠ v.reg 1) ∧
    (fromFloat (-3 / 2) = some 0xFFFFFE80 ∧ (place [(2, 0xFFFFFE80)]).reg 2 = 0xFFFFFE80 ∧
      ∃ t, exec (.toint 1 2) (place [(2, 0xFFFFFE80)]) = .next t) :=
  ⟨⟨by decide, by decide, _, _, _, rfl, rfl, rfl⟩, ⟨_, _, rfl, rfl, by decide⟩,
    by decide +kernel, by decide, _, rfl⟩

theorem witness_AddAndSubWrap : ∃ rd ra rb : Reg, ra = rb ∧ rd = ra := ⟨3, 3, 3, rfl, rfl⟩

/-- Products at the two ends of the envelope: 2^31 - 2^16 and -2^31. -/
theorem witness_MulIsTheNarrowProduct :
    (-2 ^ 31 ≤ ((place [(2, 0x7FFF), (3, 0x10000)]).reg 2).toInt * ((place [(2, 0x7FFF), (3, 0x10000)]).reg 3).toInt ∧
      ((place [(2, 0x7FFF), (3, 0x10000)]).reg 2).toInt * ((place [(2, 0x7FFF), (3, 0x10000)]).reg 3).toInt <
        2 ^ 31) ∧
    (-2 ^ 31 ≤ ((place [(2, 0x80000000), (3, 1)]).reg 2).toInt * ((place [(2, 0x80000000), (3, 1)]).reg 3).toInt ∧
      ((place [(2, 0x80000000), (3, 1)]).reg 2).toInt * ((place [(2, 0x80000000), (3, 1)]).reg 3).toInt < 2 ^ 31) := by
  decide

theorem witness_Mul64IsTheWidenedProduct :
    -2 ^ 31 ≤ ((place [(2, 0x80000000), (3, 0x100)]).reg 2).toInt *
        ((place [(2, 0x80000000), (3, 0x100)]).reg 3).toInt / 256 ∧
      ((place [(2, 0x80000000), (3, 0x100)]).reg 2).toInt *
        ((place [(2, 0x80000000), (3, 0x100)]).reg 3).toInt / 256 < 2 ^ 31 := by decide

theorem witness_WidenedPathsAgreeInsideTheEnvelope :
    (-2 ^ 31 ≤ ((place [(2, 0x80000000), (3, 1)]).reg 2).toInt * ((place [(2, 0x80000000), (3, 1)]).reg 3).toInt ∧
      ((place [(2, 0x80000000), (3, 1)]).reg 2).toInt * ((place [(2, 0x80000000), (3, 1)]).reg 3).toInt < 2 ^ 31) ∧
    ((place [(2, 0xFF800000), (3, 0xFFFFFFFF)]).reg 3 ≠ 0 ∧
      -2 ^ 23 ≤ ((place [(2, 0xFF800000), (3, 0xFFFFFFFF)]).reg 2).toInt ∧
      ((place [(2, 0xFF800000), (3, 0xFFFFFFFF)]).reg 2).toInt < 2 ^ 23) ∧
    (place [(2, 5)]).reg 3 = 0 := by decide

/-- Divisor not 0, with the dividend at both ends of the exact range and with the scaled dividend -2^31 over -1;
divisor 0. -/
theorem witness_DivIsTheNarrowQuotient :
    ((place [(2, 0xFF800000), (3, 0xFFFFFFFF)]).reg 3 ≠ 0 ∧
      -2 ^ 23 ≤ ((place [(2, 0xFF800000), (3, 0xFFFFFFFF)]).reg 2).toInt ∧
      ((place [(2, 0xFF800000), (3, 0xFFFFFFFF)]).reg 2).toInt < 2 ^ 23 ∧
      BitVec.ofInt 32 (((place [(2, 0xFF800000), (3, 0xFFFFFFFF)]).reg 2).toInt * 256) = 0x80000000 ∧
      (place [(2, 0xFF800000), (3, 0xFFFFFFFF)]).reg 3 = 0xFFFFFFFF) ∧
    ((place [(2, 0x7FFFFF), (3, 1)]).reg 3 ≠ 0 ∧ -2 ^ 23 ≤ ((place [(2, 0x7FFFFF), (3, 1)]).reg 2).toInt ∧
      ((place [(2, 0x7FFFFF), (3, 1)]).reg 2).toInt < 2 ^ 23) ∧
    (place [(2, 0x100)]).reg 3 = 0 := by decide

theorem witness_Div64IsTheWidenedQuotient :
    (place [(2, 0x80000000), (3, 0xFFFFFFFF)]).reg 3 ≠ 0 ∧ (place [(2, 0x80000000)]).reg 3 = 0 := by decide

/-- The four sign combinations of the scaled dividend and the divisor, dividend 0, and divisor 0. -/
theorem witness_DivisionRoundsTowardZeroAtEverySign :
    (0 ≤ ((place [(2, 0x100), (3, 0x300)]).reg 2).toInt * 256 ∧ 0 < ((place [(2, 0x100), (3, 0x300)]).reg 3).toInt) ∧
    (((place [(2, 0xFFFFFF00), (3, 0x300)]).reg 2).toInt * 256 < 0 ∧
      0 < ((place [(2, 0xFFFFFF00), (3, 0x300)]).reg 3).toInt) ∧
    (0 ≤ ((place [(3, 0xFFFFFD00)]).reg 2).toInt * 256 ∧ ((place [(3, 0xFFFFFD00)]).reg 3).toInt < 0) ∧
    (((place [(2, 0xFFFFFF00), (3, 0xFFFFFD00)]).reg 2).toInt * 256 < 0 ∧
      ((place [(2, 0xFFFFFF00), (3, 0xFFFFFD00)]).reg 3).toInt < 0) ∧
    (place [(3, 0x300)]).reg 3 ≠ 0 ∧ (place [(3, 0xFFFFFD00)]).reg 3 ≠ 0 ∧ (place [(2, 0x100)]).reg 3 = 0 := by decide

theorem witness_RecimulIsTheMultiplyShift : (8 : Imm5).val = 8 ∧ (0 : Imm5).val = 0 := by decide

/-- The last numerator inside the bound for `(3, 16)`, and the largest for a divisor that divides `2^fp`. -/
theorem witness_RecimulIsExactInsideTheSafetyBound :
    (recipK 3 (16 : Imm5).val = some 21846 ∧ ((place [(2, 32767), (3, 21846)]).reg 3).toInt = 21846 ∧
      0 ≤ ((place [(2, 32767), (3, 21846)]).reg 2).toInt ∧
      ((place [(2, 32767), (3, 21846)]).reg 2).toInt * (21846 * 3 - 2 ^ (16 : Imm5).val) < 2 ^ (16 : Imm5).val) ∧
    (recipK 256 (16 : Imm5).val = some 256 ∧ ((place [(2, 0x7FFFFFFF), (3, 256)]).reg 3).toInt = 256 ∧
      0 ≤ ((place [(2, 0x7FFFFFFF), (3, 256)]).reg 2).toInt ∧
      ((place [(2, 0x7FFFFFFF), (3, 256)]).reg 2).toInt * (256 * 256 - 2 ^ (16 : Imm5).val) <
        2 ^ (16 : Imm5).val) := by decide

theorem witness_RecipkIsTheCeiling :
    ((1 : Int) ≤ 1 ∧ 30 ≤ 31 ∧ ¬((1 : Int) = 1 ∧ 30 = 31)) ∧ ((1 : Int) ≤ 2 ∧ 31 ≤ 31 ∧ ¬((2 : Int) = 1 ∧ 31 = 31)) ∧
      (0 : Int) ≤ 0 := by decide

theorem witness_FloatConversionsRoundTrip : fromFloat (-999 / 1000) = some 0xFFFFFF01 := by decide +kernel

/-- Integer indices 512 and 513. -/
theorem witness_Lerp16InterpolatesTheSineTable :
    ((place [(2, 0x1007F)]).reg 2).toNat / 2 ^ (7 : Imm5).val ≤ 512 ∧
      512 < ((place [(2, 0x10080)]).reg 2).toNat / 2 ^ (7 : Imm5).val := by decide

/-- Integer indices 1, 255, 0 and 256. -/
theorem witness_Lerp32InterpolatesTheReciprocalTable :
    (1 ≤ ((place [(2, 0x100)]).reg 2).toNat / 2 ^ (8 : Imm5).val ∧
      ((place [(2, 0x100)]).reg 2).toNat / 2 ^ (8 : Imm5).val ≤ 255) ∧
    (1 ≤ ((place [(2, 0xFFFF)]).reg 2).toNat / 2 ^ (8 : Imm5).val ∧
      ((place [(2, 0xFFFF)]).reg 2).toNat / 2 ^ (8 : Imm5).val ≤ 255) ∧
    (((place [(2, 0xFF)]).reg 2).toNat / 2 ^ (8 : Imm5).val < 1 ∨
      255 < ((place [(2, 0xFF)]).reg 2).toNat / 2 ^ (8 : Imm5).val) ∧
    (((place [(2, 0x10000)]).reg 2).toNat / 2 ^ (8 : Imm5).val < 1 ∨
      255 < ((place [(2, 0x10000)]).reg 2).toNat / 2 ^ (8 : Imm5).val) := by decide

theorem lerp16_next {rd ra : Reg} {imm : Imm5} {s : State} (h : ¬lsr (s.reg ra) imm.val > 512) :
    ∃ t, exec (.lerp16 rd ra imm) s = .next t := ⟨_, if_neg h⟩

theorem lerp32_next {rd ra : Reg} {imm : Imm5} {s : State}
    (h : ¬(lsr (s.reg ra) imm.val < 1 ∨ lsr (s.reg ra) imm.val > 255)) :
    ∃ t, exec (.lerp32 rd ra imm) s = .next t := ⟨_, if_neg h⟩

/-- Rising, falling and equal neighbours, fraction 0, and the falling reciprocal table at its last index. -/
theorem witness_InterpolatedValueLiesBetweenTheSamples :
    (((place [(2, 0x40)]).reg 2).toNat / 2 ^ (7 : Imm5).val ≤ 512 ∧ sinLut 0 < sinLut 1 ∧
      ∃ t, exec (.lerp16 1 2 7) (place [(2, 0x40)]) = .next t) ∧
    (((place [(2, 0x6001)]).reg 2).toNat / 2 ^ (7 : Imm5).val ≤ 512 ∧ sinLut 193 < sinLut 192 ∧
      ((place [(2, 0x6001)]).reg 2).toNat % 2 ^ (7 : Imm5).val ≠ 0 ∧
      ∃ t, exec (.lerp16 1 2 7) (place [(2, 0x6001)]) = .next t) ∧
    (((place [(2, 0x4000)]).reg 2).toNat / 2 ^ (7 : Imm5).val ≤ 512 ∧ sinLut 128 = sinLut 129 ∧
      ((place [(2, 0x4000)]).reg 2).toNat % 2 ^ (7 : Imm5).val = 0 ∧
      ∃ t, exec (.lerp16 1 2 7) (place [(2, 0x4000)]) = .next t) ∧
    (1 ≤ ((place [(2, 0xFFFF)]).reg 2).toNat / 2 ^ (8 : Imm5).val ∧
      ((place [(2, 0xFFFF)]).reg 2).toNat / 2 ^ (8 : Imm5).val ≤ 255 ∧ divLutSigned 256 < divLutSigned 255 ∧
      ∃ t, exec (.lerp32 1 2 8) (place [(2, 0xFFFF)]) = .next t) :=
  ⟨⟨by decide, by decide, lerp16_next (by decide)⟩, ⟨by decide, by decide, by decide, lerp16_next (by decide)⟩,
    ⟨by decide, by decide, by decide, lerp16_next (by decide)⟩, by decide, by decide, by decide,
    lerp32_next (by decide)⟩

theorem witness_RecipIsTheRoundedReciprocal :
    (1 ≤ ((place [(2, 1)]).reg 2).toNat ∧ ((place [(2, 1)]).reg 2).toNat ≤ 255) ∧
    (1 ≤ ((place [(2, 255)]).reg 2).toNat ∧ ((place [(2, 255)]).reg 2).toNat ≤ 255) ∧
    (((place []).reg 2).toNat < 1 ∨ 255 < ((place []).reg 2).toNat) ∧
    (((place [(2, 256)]).reg 2).toNat < 1 ∨ 255 < ((place [(2, 256)]).reg 2).toNat) := by decide

/-- The four premises at the angle 0xFFFFFFFF, where each sum wraps. -/
theorem witness_SineLawsHoldForEveryAngle :
    (([65536, 16384, 32768, 128] : List Word).all fun d =>
      (place [(2, 0xFFFFFFFF + d)]).reg 2 = (place [(2, 0xFFFFFFFF)]).reg 2 + d) ∧
    ∀ s : State, (∃ t, exec (.sin 1 2) s = .next t) ∧ ∃ u, exec (.cos 1 2) s = .next u :=
  ⟨by decide, fun _ => ⟨⟨_, rfl⟩, _, rfl⟩⟩

theorem witness_SineTableIsTheTrueSine : 511 < 512 ∧ 513 < 514 := by decide

theorem witness_TableProperties : (1 ≤ 256 ∧ 256 ≤ 256) ∧ (1 ≤ 255 ∧ 255 ≤ 255) ∧ 513 ≤ 513 ∧ 512 ≤ 512 := by decide

/-- The highest destination of each kind meets the premise; the next one is illegal, with its word about to be
written and no fault pending. -/
theorem witness_SetCommandsCopyPatterns :
    ((14 : Reg).val ≤ 14 ∧ (13 : Reg).val ≤ 13 ∧ (12 : Reg).val ≤ 12) ∧
    (¬(15 : Reg).val ≤ 14 ∧ ¬(14 : Reg).val ≤ 13 ∧ ¬(13 : Reg).val ≤ 12) ∧
    ∀ i ∈ [Instr.ptset 15 0 1, .vset 14 0 1 2, .rcset 13 0 1 2 3],
      (before [hostWriteCmd (encode i)]).script = hostWriteCmd (encode i) :: [] ∧
        (before [hostWriteCmd (encode i)]).fault = false := by decide

theorem witness_PointAddAndSubAreComponentwise :
    ((14 : Reg).val ≤ 14 ∧ (14 : Reg).val ≤ 14 ∧ (14 : Reg).val ≤ 14) ∧
    ¬((14 : Reg).val ≤ 14 ∧ (14 : Reg).val ≤ 14 ∧ (15 : Reg).val ≤ 14) ∧
    ∀ i ∈ [Instr.ptadd 14 14 15, .ptsub 14 14 15],
      (before [hostWriteCmd (encode i)]).script = hostWriteCmd (encode i) :: [] ∧
        (before [hostWriteCmd (encode i)]).fault = false := by decide

theorem witness_PointScaleMultipliesBothComponents :
    ((14 : Reg).val ≤ 14 ∧ (14 : Reg).val ≤ 14) ∧ (place []).reg 15 = 0 ∧
    (place [(15, 0xFFFFFFFF)]).reg 15 = 0xFFFFFFFF ∧ ¬((14 : Reg).val ≤ 14 ∧ (15 : Reg).val ≤ 14) ∧
    (before [hostWriteCmd (encode (.ptscale 14 15 0))]).script = hostWriteCmd (encode (.ptscale 14 15 0)) :: [] ∧
    (before [hostWriteCmd (encode (.ptscale 14 15 0))]).fault = false := by decide

theorem witness_PointCrossAndDot :
    ((14 : Reg).val ≤ 14 ∧ (14 : Reg).val ≤ 14) ∧ ¬((14 : Reg).val ≤ 14 ∧ (15 : Reg).val ≤ 14) ∧
    ∀ i ∈ [Instr.ptcross 15 14 15, .ptdot 15 14 15],
      (before [hostWriteCmd (encode i)]).script = hostWriteCmd (encode i) :: [] ∧
        (before [hostWriteCmd (encode i)]).fault = false := by decide

/-- The point (0, 0) is inside the rect (0, 0, 10, 10), the point (10, 0) is outside, and (5, 5, 5, 5) is empty. -/
theorem witness_PointInRectIsHalfOpen :
    ((14 : Reg).val ≤ 14 ∧ (12 : Reg).val ≤ 12) ∧
    (((place [(4, 10), (5, 10)]).reg 2).toInt ≤ ((place [(4, 10), (5, 10)]).reg 0).toInt ∧
      ((place [(4, 10), (5, 10)]).reg 0).toInt < ((place [(4, 10), (5, 10)]).reg 4).toInt ∧
      ((place [(4, 10), (5, 10)]).reg 3).toInt ≤ ((place [(4, 10), (5, 10)]).reg 1).toInt ∧
      ((place [(4, 10), (5, 10)]).reg 1).toInt < ((place [(4, 10), (5, 10)]).reg 5).toInt) ∧
    ¬((place [(0, 10), (4, 10), (5, 10)]).reg 0).toInt < ((place [(0, 10), (4, 10), (5, 10)]).reg 4).toInt ∧
    ((place [(2, 5), (3, 5), (4, 5), (5, 5)]).reg 4).toInt ≤ ((place [(2, 5), (3, 5), (4, 5), (5, 5)]).reg 2).toInt ∧
    ¬((14 : Reg).val ≤ 14 ∧ (13 : Reg).val ≤ 12) ∧
    (before [hostWriteCmd (encode (.ptinrect 0 14 13))]).script = hostWriteCmd (encode (.ptinrect 0 14 13)) :: [] ∧
    (before [hostWriteCmd (encode (.ptinrect 0 14 13))]).fault = false := by decide

/-- A width of 2^31 - 1 (the largest that fits), and an illegal rect. -/
theorem witness_RectWidthAndHeight :
    (12 : Reg).val ≤ 12 ∧
    (-2 ^ 31 ≤ ((place [(14, 0x7FFFFFFF)]).reg 14).toInt - ((place [(14, 0x7FFFFFFF)]).reg 12).toInt ∧
      ((place [(14, 0x7FFFFFFF)]).reg 14).toInt - ((place [(14, 0x7FFFFFFF)]).reg 12).toInt < 2 ^ 31) ∧
    (-2 ^ 31 ≤ ((place [(15, 0x80000000)]).reg 15).toInt - ((place [(15, 0x80000000)]).reg 13).toInt ∧
      ((place [(15, 0x80000000)]).reg 15).toInt - ((place [(15, 0x80000000)]).reg 13).toInt < 2 ^ 31) ∧
    ¬(13 : Reg).val ≤ 12 ∧ ∀ i ∈ [Instr.rcwidth 15 13, .rcheight 15 13],
      (before [hostWriteCmd (encode i)]).script = hostWriteCmd (encode i) :: [] ∧
        (before [hostWriteCmd (encode i)]).fault = false := by decide

theorem witness_RectSetPositionKeepsTheSize :
    ((12 : Reg).val ≤ 12 ∧ (12 : Reg).val ≤ 12 ∧ (14 : Reg).val ≤ 14) ∧
    ¬((12 : Reg).val ≤ 12 ∧ (12 : Reg).val ≤ 12 ∧ (15 : Reg).val ≤ 14) ∧
    (before [hostWriteCmd (encode (.rcsetpos 12 12 15))]).script = hostWriteCmd (encode (.rcsetpos 12 12 15)) :: [] ∧
    (before [hostWriteCmd (encode (.rcsetpos 12 12 15))]).fault = false := by decide

theorem witness_RectFromCornerAndSize :
    ((12 : Reg).val ≤ 12 ∧ (14 : Reg).val ≤ 14) ∧ ¬(13 : Reg).val ≤ 12 ∧
    ¬((12 : Reg).val ≤ 12 ∧ (12 : Reg).val ≤ 12 ∧ (15 : Reg).val ≤ 14) ∧
    ∀ i ∈ [Instr.rcseto 13 0 1 2 3, .rcsetsize 12 12 15],
      (before [hostWriteCmd (encode i)]).script = hostWriteCmd (encode i) :: [] ∧
        (before [hostWriteCmd (encode i)]).fault = false := by decide

theorem witness_RectMoveAndInflate :
    ((12 : Reg).val ≤ 12 ∧ (12 : Reg).val ≤ 12 ∧ (14 : Reg).val ≤ 14) ∧
    ¬((12 : Reg).val ≤ 12 ∧ (12 : Reg).val ≤ 12 ∧ (15 : Reg).val ≤ 14) ∧
    ¬((12 : Reg).val ≤ 12 ∧ (12 : Reg).val ≤ 12 ∧ (13 : Reg).val ≤ 12) ∧
    ∀ i ∈ [Instr.rcmove 12 12 15, .rcinfl 12 12 15, .rcinflr 12 12 13],
      (before [hostWriteCmd (encode i)]).script = hostWriteCmd (encode i) :: [] ∧
        (before [hostWriteCmd (encode i)]).fault = false := by decide

/-- An axis inverted by signed compare only, an ordered one and one with equal edges. -/
theorem witness_RectNormalizeOrdersEachAxis :
    ((12 : Reg).val ≤ 12 ∧ (12 : Reg).val ≤ 12) ∧
    ((place [(12, 1), (14, 0xFFFFFFFF)]).reg 14).toInt < ((place [(12, 1), (14, 0xFFFFFFFF)]).reg 12).toInt ∧
    ((place [(12, 1), (14, 0xFFFFFFFF)]).reg 13).toInt ≤ ((place [(12, 1), (14, 0xFFFFFFFF)]).reg 15).toInt ∧
    ((place [(13, 1), (15, 0xFFFFFFFF)]).reg 15).toInt < ((place [(13, 1), (15, 0xFFFFFFFF)]).reg 13).toInt ∧
    ((place [(13, 1), (15, 0xFFFFFFFF)]).reg 12).toInt ≤ ((place [(13, 1), (15, 0xFFFFFFFF)]).reg 14).toInt ∧
    ¬((12 : Reg).val ≤ 12 ∧ (13 : Reg).val ≤ 12) ∧
    (before [hostWriteCmd (encode (.rcnorm 12 13))]).script = hostWriteCmd (encode (.rcnorm 12 13)) :: [] ∧
    (before [hostWriteCmd (encode (.rcnorm 12 13))]).fault = false := by decide

theorem rcnorm_next {rd ra : Reg} {s : State} (h : (Instr.rcnorm rd ra).wellFormed = true) :
    ∃ t, exec (.rcnorm rd ra) s = .next t := ⟨_, if_pos h⟩

theorem witness_RectNormalizeIsIdempotent :
    ((12 : Reg).val ≤ 12 ∧ (0 : Reg).val ≤ 12 ∧ (4 : Reg).val ≤ 12) ∧
    (∃ t u, exec (.rcnorm 12 4) (place [(4, 10), (5, 10)]) = .next t ∧ exec (.rcnorm 0 12) t = .next u) ∧
    |((place [(4, 10), (5, 10)]).reg 6).toInt - ((place [(4, 10), (5, 10)]).reg 4).toInt| < 2 ^ 31 ∧
    |((place [(4, 10), (5, 10)]).reg 7).toInt - ((place [(4, 10), (5, 10)]).reg 5).toInt| < 2 ^ 31 := by
  obtain ⟨t, ht⟩ := rcnorm_next (rd := 12) (ra := 4) (s := place [(4, 10), (5, 10)]) (by decide)
  obtain ⟨u, hu⟩ := rcnorm_next (rd := 0) (ra := 12) (s := t) (by decide)
  exact ⟨by decide, ⟨t, u, ht, hu⟩, by decide, by decide⟩

theorem witness_VectorAddAndSubAreComponentwise :
    ((13 : Reg).val ≤ 13 ∧ (13 : Reg).val ≤ 13 ∧ (13 : Reg).val ≤ 13) ∧
    ¬((13 : Reg).val ≤ 13 ∧ (13 : Reg).val ≤ 13 ∧ (14 : Reg).val ≤ 13) ∧
    ∀ i ∈ [Instr.vadd 13 13 14, .vsub 13 13 14],
      (before [hostWriteCmd (encode i)]).script = hostWriteCmd (encode i) :: [] ∧
        (before [hostWriteCmd (encode i)]).fault = false := by decide

/-- Scalar 1.0 with a component at each end of the range it copies. -/
theorem witness_VectorProductsAreNarrow :
    ((13 : Reg).val ≤ 13 ∧ (13 : Reg).val ≤ 13 ∧ (13 : Reg).val ≤ 13) ∧
    ((place [(8, 0x100), (4, 0xFF800000), (6, 0x7FFFFF)]).reg 8 = 0x100 ∧ (2 : Reg).val ≤ 2 ∧
      -2 ^ 23 ≤ ((place [(8, 0x100), (4, 0xFF800000), (6, 0x7FFFFF)]).reg (4 + 0)).toInt ∧
      ((place [(8, 0x100), (4, 0xFF800000), (6, 0x7FFFFF)]).reg (4 + 0)).toInt < 2 ^ 23 ∧
      -2 ^ 23 ≤ ((place [(8, 0x100), (4, 0xFF800000), (6, 0x7FFFFF)]).reg (4 + 2)).toInt ∧
      ((place [(8, 0x100), (4, 0xFF800000), (6, 0x7FFFFF)]).reg (4 + 2)).toInt < 2 ^ 23) ∧
    ¬((13 : Reg).val ≤ 13 ∧ (13 : Reg).val ≤ 13 ∧ (14 : Reg).val ≤ 13) ∧ ¬((13 : Reg).val ≤ 13 ∧ (14 : Reg).val ≤ 13) ∧
    ∀ i ∈ [Instr.vmul 13 13 14, .vscale 13 14 15],
      (before [hostWriteCmd (encode i)]).script = hostWriteCmd (encode i) :: [] ∧
        (before [hostWriteCmd (encode i)]).fault = false := by decide

theorem witness_VectorDotNeverWraps :
    ((13 : Reg).val ≤ 13 ∧ (13 : Reg).val ≤ 13) ∧ ¬((13 : Reg).val ≤ 13 ∧ (14 : Reg).val ≤ 13) ∧
    (before [hostWriteCmd (encode (.vdot 15 13 14))]).script = hostWriteCmd (encode (.vdot 15 13 14)) :: [] ∧
    (before [hostWriteCmd (encode (.vdot 15 13 14))]).fault = false := by decide

theorem witness_VectorCrossIsRightHanded :
    ((13 : Reg).val ≤ 13 ∧ (13 : Reg).val ≤ 13 ∧ (13 : Reg).val ≤ 13) ∧
    ¬((13 : Reg).val ≤ 13 ∧ (13 : Reg).val ≤ 13 ∧ (14 : Reg).val ≤ 13) ∧
    (before [hostWriteCmd (encode (.vcross 13 13 14))]).script = hostWriteCmd (encode (.vcross 13 13 14)) :: [] ∧
    (before [hostWriteCmd (encode (.vcross 13 13 14))]).fault = false := by decide

end Sys2Proof.Tests
end

section
/-! The host's actions (10_state.md R26, R31 to R36): the state whose script has lost its next action, the step of each
action, and the five statements about them. -/

namespace Sys2Proof.Machine

/-! ## The state whose script has lost the action -/

section WithScript

variable (s : State) (rest : List HostAction)

@[simp] theorem State.withScript_regs : (s.withScript rest).regs = s.regs := rfl
@[simp] theorem State.withScript_fault : (s.withScript rest).fault = s.fault := rfl
@[simp] theorem State.withScript_cause : (s.withScript rest).cause = s.cause := rfl
@[simp] theorem State.withScript_faultCmd : (s.withScript rest).faultCmd = s.faultCmd := rfl
@[simp] theorem State.withScript_resetGpr : (s.withScript rest).resetGpr = s.resetGpr := rfl
@[simp] theorem State.withScript_script : (s.withScript rest).script = rest := rfl
@[simp] theorem State.withScript_returned : (s.withScript rest).returned = s.returned := rfl
@[simp] theorem State.reg_withScript (r : Reg) : (s.withScript rest).reg r = s.reg r := rfl

@[simp] theorem State.faultRecordSound_withScript :
    (s.withScript rest).faultRecordSound = s.faultRecordSound := rfl

/-- The host reads the block, of which its own script is no part. -/
@[simp] theorem State.readLoc_withScript (loc : WindowLoc) :
    (s.withScript rest).readLoc loc = s.readLoc loc := by
  cases loc <;> rfl

end WithScript

/-! ## A command word, by what the block does with it (R33) -/

section WriteCmd

variable {s : State} {w : Word}

theorem State.writeCmd_of_fault (hf : s.fault = true) : s.writeCmd w = .next s := by
  simp [State.writeCmd, hf]

theorem State.writeCmd_of_illegal {e : Illegal} (hf : s.fault = false) (hd : decode w = .error e) :
    s.writeCmd w = .next (s.raise .illegalCommand w) := by
  simp [State.writeCmd, hf, hd]

theorem State.writeCmd_of_legal {i : Instr} (hf : s.fault = false) (hd : decode w = .ok i) :
    s.writeCmd w = exec i s := by
  simp [State.writeCmd, hf, hd]

end WriteCmd

/-! ## The STATUS register (R26, R35) -/

section Status

variable {s : State} {v : Word}

/-- `STATUS` bit by bit; beyond bit 31 there is nothing, which `getLsbD` answers with `false` too. -/
theorem State.getLsbD_statusWord (s : State) (k : Nat) :
    s.statusWord.getLsbD k =
      if k = 0 then s.fault else if 4 ≤ k ∧ k < 8 then s.cause.code.getLsbD (k - 4) else false := by
  rw [State.statusWord, BitVec.getLsbD_append, BitVec.getLsbD_append, BitVec.getLsbD_append]
  by_cases hFault : k = 0
  · simp [hFault]
  by_cases hBelow : k < 4
  · simp [show ¬k < 1 by omega, show k - 1 < 3 by omega, show ¬(4 ≤ k ∧ k < 8) by omega, hFault]
  by_cases hCause : k < 8
  · simp [show ¬k < 1 by omega, show ¬k - 1 < 3 by omega, show k - 1 - 3 = k - 4 by omega, hFault,
      show k - 4 < 4 by omega, show 4 ≤ k ∧ k < 8 by omega]
  · simp [show ¬k < 1 by omega, show ¬k - 1 < 3 by omega, show ¬k - 1 - 3 < 4 by omega, hFault,
      show ¬(4 ≤ k ∧ k < 8) by omega]

theorem State.statusWord_eq_zero (hf : s.fault = false) (hc : s.cause = .none) : s.statusWord = 0 := by
  simp [State.statusWord, hf, hc, Cause.code]

@[simp] theorem State.statusWord_clearFault (s : State) : s.clearFault.statusWord = 0 :=
  State.statusWord_eq_zero rfl rfl

@[simp] theorem State.statusWord_resetBlock (s : State) : s.resetBlock.statusWord = 0 :=
  State.statusWord_eq_zero rfl rfl

theorem State.writeStatus_of_set (hv : v.getLsbD 0 = true) : s.writeStatus v = s.clearFault := if_pos hv

theorem State.writeStatus_of_clear (hv : v.getLsbD 0 = false) : s.writeStatus v = s :=
  if_neg (Bool.eq_false_iff.mp hv)

/-- Without a pending fault a sound record already holds what clearing would put there. -/
theorem State.clearFault_eq_self (hSound : s.faultRecordSound = true) (hf : s.fault = false) :
    s.clearFault = s := by
  have hRecord : s.cause = .none ∧ s.faultCmd = 0 := by simpa [State.faultRecordSound, hf] using hSound
  obtain ⟨hCause, hCmd⟩ := hRecord
  rw [State.clearFault, ← hf, ← hCause, ← hCmd]

/-- With no fault to clear the word written to `STATUS` does not matter. -/
theorem State.writeStatus_of_noFault (hSound : s.faultRecordSound = true) (hf : s.fault = false) :
    s.writeStatus v = s := by
  cases hv : v.getLsbD 0 with
  | true => rw [State.writeStatus_of_set hv, State.clearFault_eq_self hSound hf]
  | false => exact State.writeStatus_of_clear hv

end Status

/-! ## The step of each host action -/

section HostStep

variable {s : State} {rest : List HostAction}

theorem step_hostWriteReg {i : Reg} {v : Word} (h : s.script = hostWriteReg i v :: rest) :
    step s = .next ((s.withScript rest).write i v) := step_cons h

theorem step_hostWriteCmd {w : Word} (h : s.script = hostWriteCmd w :: rest) :
    step s = (s.withScript rest).writeCmd w := step_cons h

theorem step_read {loc : WindowLoc} (h : s.script = .read loc :: rest) :
    step s = .next ((s.withScript rest).returnWord (s.readLoc loc)) := by
  rw [← s.readLoc_withScript rest loc]
  exact step_cons h

theorem step_hostReadReg {i : Reg} (h : s.script = hostReadReg i :: rest) :
    step s = .next ((s.withScript rest).returnWord (s.reg i)) := step_read h

theorem step_writeStatus {v : Word} (h : s.script = .write .status v :: rest) :
    step s = .next ((s.withScript rest).writeStatus v) := step_cons h

theorem step_hostReset (h : s.script = hostReset :: rest) :
    step s = .next (s.withScript rest).resetBlock := step_cons h

end HostStep

/-! ## The statements -/

/-- Settles O9: the step is the write to `CMD`, and each clause is one of its three branches. -/
theorem stepRunsTheDecodedCommand : Obligations.StepRunsTheDecodedCommand := by
  intro s w rest h
  rw [step_hostWriteCmd h]
  refine ⟨fun hf => ?discarded, fun e hf hd => ?illegal, fun i hf hd => ?executed⟩
  case discarded => exact State.writeCmd_of_fault hf
  case illegal => exact ⟨_, State.writeCmd_of_illegal hf hd, State.raise_entersFault _ _ _⟩
  case executed => exact State.writeCmd_of_legal hf hd

/-- Settles O11: the next state is the register write, and the read that follows finds the value there. -/
theorem hostWriteRegWritesOneRegister : Obligations.HostWriteRegWritesOneRegister := by
  intro s i v rest h
  refine ⟨_, step_hostWriteReg h, State.onlyWrites_write _ i v, State.reg_write_self _ i v, ?_⟩
  intro later hRead
  exact ⟨_, step_hostReadReg hRead, by simp⟩

/-- Settles O12: the word returned is `readLoc`'s, which for `STATUS` is known bit by bit. -/
theorem hostReadsReturnTheWindowAndChangeNothing : Obligations.HostReadsReturnTheWindowAndChangeNothing := by
  intro s loc rest h
  refine ⟨_, s.readLoc loc, step_read h, rfl, ?_⟩
  cases loc with
  | reg i => rfl
  | cmd => rfl
  | status => exact s.getLsbD_statusWord
  | faultCmd => rfl

/-- Settles O13: bit 0 of the word decides between clearing the fault and leaving the state; with a sound record and no
fault the two are the same. -/
theorem statusWriteClearsTheFault : Obligations.StatusWriteClearsTheFault := by
  intro s v rest h
  rw [step_writeStatus h]
  refine ⟨fun hv => ?bitSet, fun hv => ?bitClear, fun hSound hf => ?noFault⟩
  case bitSet => exact ⟨(s.withScript rest).clearFault, by rw [State.writeStatus_of_set hv], by simp⟩
  case bitClear => rw [State.writeStatus_of_clear hv]
  case noFault => rw [State.writeStatus_of_noFault (by simpa using hSound) (by simpa using hf)]

/-- Settles O14: the next state is the reset block, whose fields do not depend on a fault pending before. -/
theorem hostResetRestoresTheResetState : Obligations.HostResetRestoresTheResetState := by
  intro s rest h
  exact ⟨_, step_hostReset h, by simp⟩

end Sys2Proof.Machine
end

section
/-! The tables of 20_memory.md (R52 to R57). The first quarter turn of the sine table is compared, entry by entry, with
a rational Taylor sum near the true sine; the table's symmetries carry that to every entry, and the bounds and steps
follow from it. The reciprocal table is compared with R54's quotient, from which its properties follow. -/

namespace Sys2Proof.Machine

open scoped Nat

/-! ## The real sine and its Taylor sums -/

/-- The first `n` terms of the sine series, over any field: over `ℚ` it evaluates, over `ℝ` it is near the sine. -/
def sinTaylor {K : Type} [Field K] (n : Nat) (x : K) : K :=
  ∑ k ∈ Finset.range n, (-1) ^ k * x ^ (2 * k + 1) / ((2 * k + 1)! : K)

theorem sinTaylor_ratCast (n : Nat) (x : ℚ) : ((sinTaylor n x : ℚ) : ℝ) = sinTaylor n (x : ℝ) := by
  simp [sinTaylor]

/-- The odd terms of the exponential series at `x * I` are the terms of the sine series. -/
theorem im_sum_exp_eq_sinTaylor (x : ℝ) (n : Nat) :
    (∑ m ∈ Finset.range (2 * n), (x * Complex.I) ^ m / (m ! : ℂ)).im = sinTaylor n x := by
  induction n with
  | zero => simp [sinTaylor]
  | succ n ih =>
    have hEven : ((x * Complex.I) ^ (2 * n) / ((2 * n)! : ℂ)).im = 0 := by
      rw [mul_pow, pow_mul Complex.I, Complex.I_sq]
      exact_mod_cast Complex.ofReal_im (x ^ (2 * n) * (-1) ^ n / (2 * n)!)
    have hOdd : ((x * Complex.I) ^ (2 * n + 1) / ((2 * n + 1)! : ℂ)).im
        = (-1) ^ n * x ^ (2 * n + 1) / ((2 * n + 1)! : ℝ) := by
      have h : (x * Complex.I) ^ (2 * n + 1) / ((2 * n + 1)! : ℂ)
          = (((-1) ^ n * x ^ (2 * n + 1) / (2 * n + 1)! : ℝ) : ℂ) * Complex.I := by
        rw [mul_pow, pow_succ Complex.I, pow_mul Complex.I, Complex.I_sq]
        push_cast
        ring
      rw [h, Complex.im_ofReal_mul, Complex.I_im, mul_one]
    rw [show 2 * (n + 1) = 2 * n + 1 + 1 from rfl, Finset.sum_range_succ, Finset.sum_range_succ, Complex.add_im,
      Complex.add_im, ih, hEven, hOdd, add_zero, sinTaylor, sinTaylor, Finset.sum_range_succ]

theorem abs_sin_sub_sinTaylor_le {x : ℝ} {n : Nat} (hx : |x| / (2 * n).succ ≤ 1 / 2) :
    |Real.sin x - sinTaylor n x| ≤ |x| ^ (2 * n) / (2 * n)! * 2 := by
  have hNorm : ‖(x * Complex.I : ℂ)‖ = |x| := by simp
  rw [← im_sum_exp_eq_sinTaylor, ← Complex.exp_ofReal_mul_I_im, ← Complex.sub_im, ← hNorm]
  exact (Complex.abs_im_le_norm _).trans (Complex.exp_bound' (by rwa [hNorm]))

/-! ## The stored sine: its symmetries (R57) and the entries of the first quarter turn -/

theorem sinEntries_antisymmetric : sinEntries.drop 256 = (sinEntries.take 258).map (- ·) := by decide +kernel

theorem sinEntries_mirror : (sinEntries.take 257).reverse = sinEntries.take 257 := by decide +kernel

/-- Half a turn further the entry is negated; the last two `i` reach the guard entries. -/
theorem sinLut_add_half {i : Nat} (hi : i ≤ 257) : sinLut (i + 256) = -sinLut i := by
  have hLen : i < sinEntries.length := by rw [sinEntries_length, Config.sinLutLen]; omega
  have h : (sinEntries.drop 256)[i]? = ((sinEntries.take 258).map (- ·))[i]? := by rw [sinEntries_antisymmetric]
  simp only [List.getElem?_drop, List.getElem?_map, List.getElem?_take_of_lt (show i < 258 by omega),
    Nat.add_comm 256] at h
  simp [sinLut_eq_entry, h, hLen]

/-- The first half turn reads the same backwards. -/
theorem sinLut_half_sub {i : Nat} (hi : i ≤ 256) : sinLut (256 - i) = sinLut i := by
  have h : (sinEntries.take 257).reverse[i]? = (sinEntries.take 257)[i]? := by rw [sinEntries_mirror]
  have hLen : (sinEntries.take 257).length = 257 := by simp [sinEntries_length, Config.sinLutLen]
  rw [List.getElem?_reverse (by omega), hLen, List.getElem?_take_of_lt (by omega),
    List.getElem?_take_of_lt (by omega)] at h
  simpa [sinLut_eq_entry] using congrArg (·.getD 0) h

/-- One turn further stands the same entry (the guard entries). -/
theorem sinLut_add_turn {i : Nat} (hi : i ≤ 1) : sinLut (i + 512) = sinLut i := by
  rw [show i + 512 = i + 256 + 256 from rfl, sinLut_add_half (by omega), sinLut_add_half (by omega), neg_neg]

/-- A rational within 6e-10 of `π`, for angles that the kernel can evaluate. -/
def rationalPi : ℚ := 103993 / 33102

theorem abs_pi_sub_rationalPi_le : |Real.pi - rationalPi| ≤ 6 / 10 ^ 10 := by
  have h₁ := Real.pi_gt_d20
  have h₂ := Real.pi_lt_d20
  rw [rationalPi, abs_le]
  push_cast
  constructor <;> linarith

/-- The sample angle of entry `i`, with `rationalPi` for `π`. -/
def rationalAngle (i : Nat) : ℚ := 2 * rationalPi * i / 512

/-- The first quarter turn, entry by entry, with 1/100000 to spare for the Taylor remainder and for `rationalPi`. -/
theorem sinEntries_near_sinTaylor : ∀ e ∈ (sinEntries.take 129).zipIdx,
    |4096 * sinTaylor 8 (rationalAngle e.2) - e.1| ≤ 1 / 2 - 67 / 10000 - 1 / 100000 := by decide +kernel

theorem sinLut_near_sinTaylor {i : Nat} (hi : i ≤ 128) :
    |4096 * sinTaylor 8 (rationalAngle i) - sinLut i| ≤ 1 / 2 - 67 / 10000 - 1 / 100000 := by
  have hLen : i < sinEntries.length := by rw [sinEntries_length, Config.sinLutLen]; omega
  refine sinEntries_near_sinTaylor (sinLut i, i) ?_
  rw [List.mk_mem_zipIdx_iff_getElem?, List.getElem?_take_of_lt (by omega), sinLut_eq_entry]
  simp [hLen]

/-! ## Every entry is its rounded sine (R52) -/

/-- The sample angle of entry `i` (R52). -/
noncomputable def sampleAngle (i : Nat) : ℝ := 2 * Real.pi * i / 512

/-- Entry `i` is the integer nearest to 4096 times the sine of its sample angle, at least 0.0067 away from a tie. -/
def SinSampleNear (i : Nat) : Prop :=
  |4096 * Real.sin (sampleAngle i) - sinLut i| ≤ 1 / 2 - 67 / 10000

theorem abs_sampleAngle_sub_rationalAngle_le {i : Nat} (hi : i ≤ 128) :
    |sampleAngle i - rationalAngle i| ≤ 3 / 10 ^ 10 := by
  have hi' : (i : ℝ) ≤ 128 := mod_cast hi
  have h : sampleAngle i - rationalAngle i = (Real.pi - rationalPi) * (i / 256) := by
    rw [sampleAngle, rationalAngle]
    push_cast
    ring
  calc |sampleAngle i - rationalAngle i| = |Real.pi - rationalPi| * (i / 256) := by
        rw [h, abs_mul, abs_of_nonneg (show (0 : ℝ) ≤ i / 256 by positivity)]
    _ ≤ 6 / 10 ^ 10 * (128 / 256) := by gcongr; exact abs_pi_sub_rationalPi_le
    _ = 3 / 10 ^ 10 := by norm_num

theorem abs_rationalAngle_le {i : Nat} (hi : i ≤ 128) : |(rationalAngle i : ℝ)| ≤ 8 / 5 := by
  have hi' : (i : ℝ) ≤ 128 := mod_cast hi
  rw [rationalAngle, rationalPi, abs_of_nonneg (by positivity)]
  push_cast
  linarith

theorem abs_sin_sampleAngle_sub_sinTaylor_le {i : Nat} (hi : i ≤ 128) :
    |Real.sin (sampleAngle i) - sinTaylor 8 (rationalAngle i : ℝ)| ≤ 1 / 10 ^ 9 := by
  have hQuarter := abs_rationalAngle_le hi
  have hAngle := (Real.abs_sin_sub_sin_le _ _).trans (abs_sampleAngle_sub_rationalAngle_le hi)
  have hTaylor : |Real.sin (rationalAngle i) - sinTaylor 8 (rationalAngle i : ℝ)| ≤ 2 / 10 ^ 10 :=
    calc _ ≤ |(rationalAngle i : ℝ)| ^ (2 * 8) / (2 * 8)! * 2 := abs_sin_sub_sinTaylor_le (by norm_num; linarith)
      _ ≤ (8 / 5) ^ (2 * 8) / (2 * 8)! * 2 := by gcongr
      _ ≤ 2 / 10 ^ 10 := by norm_num [Nat.factorial]
  calc |Real.sin (sampleAngle i) - sinTaylor 8 (rationalAngle i : ℝ)|
      ≤ |Real.sin (sampleAngle i) - Real.sin (rationalAngle i)|
        + |Real.sin (rationalAngle i) - sinTaylor 8 (rationalAngle i : ℝ)| := abs_sub_le _ _ _
    _ ≤ 3 / 10 ^ 10 + 2 / 10 ^ 10 := add_le_add hAngle hTaylor
    _ ≤ 1 / 10 ^ 9 := by norm_num

theorem sinSampleNear_quarter {i : Nat} (hi : i ≤ 128) : SinSampleNear i := by
  have hTable := (Rat.cast_le (K := ℝ)).2 (sinLut_near_sinTaylor hi)
  push_cast [sinTaylor_ratCast] at hTable
  have hSin := abs_sin_sampleAngle_sub_sinTaylor_le hi
  rw [SinSampleNear, abs_le]
  rw [abs_le] at hTable hSin
  constructor <;> linarith

theorem sinSampleNear_half_sub {i : Nat} (hi : i ≤ 256) (h : SinSampleNear (256 - i)) : SinSampleNear i := by
  have hAngle : sampleAngle (256 - i) = Real.pi - sampleAngle i := by
    rw [sampleAngle, sampleAngle, Nat.cast_sub hi]; push_cast; ring
  rwa [SinSampleNear, hAngle, Real.sin_pi_sub, sinLut_half_sub hi] at h

theorem sinSampleNear_add_half {i : Nat} (hi : i ≤ 257) (h : SinSampleNear i) : SinSampleNear (i + 256) := by
  have hAngle : sampleAngle (i + 256) = sampleAngle i + Real.pi := by
    rw [sampleAngle, sampleAngle]; push_cast; ring
  rw [SinSampleNear, hAngle, Real.sin_add_pi, sinLut_add_half hi, Int.cast_neg,
    mul_neg, ← neg_sub', abs_neg]
  exact h

/-- From the first quarter turn by the symmetries, and on to the guard entries by the second half turn. -/
theorem sinSampleNear {i : Nat} (hi : i ≤ 513) : SinSampleNear i := by
  have hHalf {k : Nat} (hk : k ≤ 256) : SinSampleNear k := by
    rcases le_total k 128 with h | h
    · exact sinSampleNear_quarter h
    · exact sinSampleNear_half_sub hk (sinSampleNear_quarter (by omega))
  have hAddHalf {k : Nat} (hk : k ≤ 256) : SinSampleNear (k + 256) := sinSampleNear_add_half (by omega) (hHalf hk)
  rcases le_total i 256 with h | h
  · exact hHalf h
  · obtain ⟨k, rfl⟩ : ∃ k, i = k + 256 := ⟨i - 256, by omega⟩
    rcases le_or_gt k 256 with h' | h'
    · exact hAddHalf h'
    · obtain rfl : k = 257 := by omega
      exact sinSampleNear_add_half le_rfl (hAddHalf (k := 1) (by omega))

theorem sinLut_bounds {i : Nat} (hi : i ≤ 513) : -4096 ≤ sinLut i ∧ sinLut i ≤ 4096 := by
  have hNear := abs_le.1 (sinSampleNear hi)
  have h₁ := Real.neg_one_le_sin (sampleAngle i)
  have h₂ := Real.sin_le_one (sampleAngle i)
  have hLow : (-4097 : ℝ) < sinLut i := by linarith
  have hHigh : (sinLut i : ℝ) < 4097 := by linarith
  norm_cast at hLow hHigh
  omega

/-- The sine moves by at most `4096 * 2 * π / 512 < 50.3` in one sample, and rounding adds less than 1. -/
theorem sinLut_step {i : Nat} (hi : i ≤ 512) : |sinLut (i + 1) - sinLut i| ≤ 51 := by
  have hNear := abs_le.1 (sinSampleNear (i := i) (by omega))
  have hNear' := abs_le.1 (sinSampleNear (i := i + 1) (by omega))
  have hAngle : sampleAngle (i + 1) - sampleAngle i = Real.pi / 256 := by
    rw [sampleAngle, sampleAngle]; push_cast; ring
  have hSin := Real.abs_sin_sub_sin_le (sampleAngle (i + 1)) (sampleAngle i)
  rw [abs_le, hAngle, abs_of_pos (by positivity)] at hSin
  have hPi := Real.pi_lt_d2
  have hLow : (-52 : ℝ) < sinLut (i + 1) - sinLut i := by linarith
  have hHigh : (sinLut (i + 1) - sinLut i : ℝ) < 52 := by linarith
  norm_cast at hLow hHigh
  rw [abs_le]
  omega

/-! ## The reciprocal table (R54) -/

/-- The rounded quotient of R54, half up. -/
def roundedRecip (i : Nat) : Nat := (131072 + i) / (2 * i)

theorem divEntries_eq_roundedRecip : divEntries = (List.range 256).map fun k => roundedRecip (k + 1) := by
  decide +kernel

theorem roundedRecip_bounds {i : Nat} (h₁ : 1 ≤ i) (h₂ : i ≤ 256) :
    256 ≤ roundedRecip i ∧ roundedRecip i ≤ 65536 := by
  constructor
  · rw [roundedRecip, Nat.le_div_iff_mul_le (by omega)]; omega
  · rw [roundedRecip, ← Nat.lt_succ_iff, Nat.div_lt_iff_lt_mul (by omega)]; omega

theorem roundedRecip_succ_le {i : Nat} (hi : 1 ≤ i) : roundedRecip (i + 1) ≤ roundedRecip i := by
  have hFloor : roundedRecip (i + 1) * (2 * (i + 1)) ≤ 131072 + (i + 1) := Nat.div_mul_le_self _ _
  rcases Nat.eq_zero_or_pos (roundedRecip (i + 1)) with hZero | hPos
  · simp [hZero]
  · rw [roundedRecip.eq_def i, Nat.le_div_iff_mul_le (by omega)]
    linarith

/-- A tie would make `131072 = 2 ^ 17` the product of `i` and an odd number (R54). -/
theorem roundedRecip_no_tie {i : Nat} (hi : i < 131072) : 2 * i * roundedRecip i ≠ 131072 + i := by
  intro hTie
  obtain ⟨m, hm⟩ : ∃ m, roundedRecip i = m + 1 :=
    Nat.exists_eq_succ_of_ne_zero fun hZero => by rw [hZero] at hTie; omega
  have hFactor : i * (2 * m + 1) = 2 ^ 17 := by rw [hm] at hTie; linarith
  have hOdd : (2 * m + 1).Coprime (2 ^ 17) := Nat.Coprime.pow_right 17 (by simp)
  have hOne := hOdd.eq_one_of_dvd ⟨i, by rw [← hFactor, mul_comm]⟩
  rw [hOne] at hFactor
  omega

theorem abs_roundedRecip_sub_lt {i : Nat} (h₁ : 1 ≤ i) (h₂ : i < 131072) :
    |(roundedRecip i : ℚ) - 65536 / i| < 1 / 2 := by
  have hFloor : 2 * i * roundedRecip i ≤ 131072 + i := Nat.mul_div_le _ _
  have hLow : 131072 + i < 2 * i * roundedRecip i + 2 * i := Nat.lt_mul_div_succ _ (by omega)
  have hHigh : 2 * i * roundedRecip i < 131072 + i := hFloor.lt_of_ne (roundedRecip_no_tie h₂)
  have hPos : (0 : ℚ) < i := by exact_mod_cast h₁
  rw [show (roundedRecip i : ℚ) - 65536 / i = (2 * i * roundedRecip i - 131072) / (2 * i) by field_simp; ring, abs_lt,
    lt_div_iff₀ (by positivity), div_lt_iff₀ (by positivity)]
  have hLow' : (131072 + i : ℚ) < 2 * i * roundedRecip i + 2 * i := by exact_mod_cast hLow
  have hHigh' : (2 * i * roundedRecip i : ℚ) < 131072 + i := by exact_mod_cast hHigh
  constructor <;> linarith

theorem divLutWord_toNat {i : Nat} (h₁ : 1 ≤ i) (h₂ : i ≤ 256) : (divLutWord i).toNat = roundedRecip i := by
  obtain ⟨k, rfl⟩ := Nat.exists_eq_add_of_le' h₁
  have hk : k < 256 := by omega
  have hFit : roundedRecip (k + 1) < 2 ^ 32 := by have := roundedRecip_bounds h₁ h₂; omega
  rw [divLutWord_succ, divEntries_eq_roundedRecip]
  simpa [hk] using hFit

/-! ## The two statements -/

/-- Settles O44: every sample is near, the guard entries are those a turn earlier. -/
theorem sineTableIsTheTrueSine : Obligations.SineTableIsTheTrueSine :=
  ⟨fun _ hi => sinSampleNear (by omega), sinLut_add_turn (by omega), sinLut_add_turn le_rfl, sinRom_length,
    fun _ hi => sinLut_bounds (by omega)⟩

/-- Settles O45: R57's clauses for the sine, R54's rounding for the reciprocals. -/
theorem tableProperties : Obligations.TableProperties := by
  refine ⟨fun i h₁ h₂ => ?rounded, fun _ hi => sinLut_add_half (by omega), fun _ => sinLut_half_sub,
    fun _ => sinLut_add_turn, fun _ => sinLut_bounds, fun _ => sinLut_step, fun i h₁ h₂ => ?decreasing⟩
  case rounded =>
    rw [divLutWord_toNat h₁ h₂]
    exact ⟨rfl, abs_roundedRecip_sub_lt h₁ (by omega)⟩
  case decreasing =>
    rw [divLutWord_toNat h₁ (by omega), divLutWord_toNat (by omega) (by omega)]
    obtain ⟨hLow, hHigh⟩ := roundedRecip_bounds h₁ (show i ≤ 256 by omega)
    exact ⟨hLow, hHigh, roundedRecip_succ_le h₁⟩

end Sys2Proof.Machine
end

section
/-! The decoder against the opcode map (30_encoding.md R84, R85, R87). The two are compared once in each direction: with
the opcode of a row the decoder makes that row's checks (`decode_of_opcode`), with any other it answers that the opcode
is reserved (`decode_of_opcode_not_mem`). What the decoder accepts and what it calls reserved follow from these. -/

namespace Sys2Proof

open Machine

variable {row : OpcodeRow} {w : Word} {i : Instr}

/-! ## The fields of a word -/

theorem regField_eq_ofNat (w : Word) (lo : Nat) : regField w lo = Fin.ofNat 16 (w.toNat / 2 ^ lo) :=
  Fin.ext (regField_val w lo)

theorem toNat_shiftRight_and_eq_regField (w : Word) (lo : Nat) :
    (w >>> lo &&& 0xF).toNat = (regField w lo).val := by
  rw [regField_val, BitVec.toNat_and, BitVec.toNat_ushiftRight, Nat.shiftRight_eq_div_pow]
  exact Nat.and_two_pow_sub_one_eq_mod _ 4

theorem opcodeField_and (v w : Word) : opcodeField (v &&& w) = opcodeField v &&& opcodeField w :=
  BitVec.extractLsb'_and

/-! ## What a row reads from a word -/

/-- The register operands of the row's command, each the value of its field (R83, R85). -/
def OpcodeRow.operandsOf (row : OpcodeRow) (w : Word) : List Operand :=
  row.fields.map fun f => (f.1, regField w f.2)

/-- `i` is the row's command with its operands, and its immediate if it has one (R86), from the fields of `w`. -/
structure OpcodeRow.Reads (row : OpcodeRow) (w : Word) (i : Instr) : Prop where
  mnemonic_eq : i.mnemonic = row.mnemonic
  operands_eq : i.operands = row.operandsOf w
  immediate_eq : ∀ imm, immediate i = some imm → imm = immField w

theorem OpcodeRow.operandsOf_eq_ofNat (row : OpcodeRow) (w : Word) :
    row.operandsOf w = row.fields.map fun f => (f.1, Fin.ofNat 16 (w.toNat / 2 ^ f.2)) := by
  simp only [OpcodeRow.operandsOf, regField_eq_ofNat]

/-- The row bounds the last register of a group by 15, `Operand.fits` the register after it by 16. -/
theorem field_bound_eq_fits (w : Word) (f : Kind × Nat) :
    decide ((w >>> f.2 &&& 0xF).toNat + f.1.size - 1 ≤ 15) = Operand.fits (f.1, regField w f.2) := by
  have hSize : 1 ≤ f.1.size := by cases f.1 <;> decide
  rw [toNat_shiftRight_and_eq_regField, Operand.fits, decide_eq_decide]
  show _ ↔ (regField w f.2).val + f.1.size ≤ 16
  omega

/-- For a command read from the row's fields, the row's conditions are the two checks of `checkRow`. -/
theorem OpcodeRow.Reads.admits_iff (h : row.Reads w i) :
    row.admits w = true ↔ w &&& row.mask = row.matchBits ∧ i.wellFormed = true := by
  simp only [OpcodeRow.admits, field_bound_eq_fits, Bool.and_eq_true, decide_eq_true_iff, Instr.wellFormed,
    h.operands_eq, OpcodeRow.operandsOf, List.all_map, Function.comp_def]

/-! ## The opcodes of the map -/

/-- The opcode values that have a row (R85). -/
def mapOpcodes : List (BitVec 8) := opcodeMap.map fun row => opcodeField row.matchBits

theorem opcodeField_mask (hRow : row ∈ opcodeMap) : opcodeField row.mask = 0xFF#8 := by
  revert row
  decide

theorem eq_of_mnemonic_eq {row' : OpcodeRow} (hRow : row ∈ opcodeMap) (hRow' : row' ∈ opcodeMap)
    (h : row.mnemonic = row'.mnemonic) : row = row' :=
  List.inj_on_of_nodup_map (f := OpcodeRow.mnemonic) (by decide) hRow hRow' h

/-- Every mask covers the opcode (R85). -/
theorem opcodeField_of_and_mask (hRow : row ∈ opcodeMap) (h : w &&& row.mask = row.matchBits) :
    opcodeField w = opcodeField row.matchBits := by
  rw [← h, opcodeField_and, opcodeField_mask hRow]
  exact BitVec.and_allOnes.symm

/-! ## The decoder, by the opcode -/

/-- With the opcode of a row the decoder makes that row's checks on the command the row reads: one arm of `decode` for
each row. -/
theorem decode_of_opcode (hRow : row ∈ opcodeMap) (hOp : opcodeField w = opcodeField row.matchBits) :
    ∃ i, decode w = checkRow w row.matchBits row.mask i ∧ row.Reads w i := by
  fin_cases hRow <;>
    exact ⟨_, by rw [decode, hOp]; rfl, rfl, rfl, by rintro _ ⟨⟩ <;> rfl⟩

theorem decode_of_opcode_not_mem (h : opcodeField w ∉ mapOpcodes) : decode w = .error .reservedOpcode := by
  unfold decode
  split
  case h_41 => rfl
  all_goals
    rename_i hOp
    exact absurd (hOp ▸ by decide) h

theorem decode_eq_reserved_iff : decode w = .error .reservedOpcode ↔ opcodeField w ∉ mapOpcodes := by
  refine ⟨fun h hMem => ?_, decode_of_opcode_not_mem⟩
  obtain ⟨row, hRow, hOp⟩ := List.mem_map.1 hMem
  obtain ⟨i, hi, -⟩ := decode_of_opcode hRow hOp.symm
  exact checkRow_ne_reserved _ _ _ i (hi ▸ h)

theorem decode_of_admits (hRow : row ∈ opcodeMap) (h : row.admits w = true) :
    ∃ i, decode w = .ok i ∧ row.Reads w i := by
  have hMask : w &&& row.mask = row.matchBits := by
    rw [OpcodeRow.admits, Bool.and_eq_true, decide_eq_true_iff] at h
    exact h.1
  obtain ⟨i, hi, hReads⟩ := decode_of_opcode hRow (opcodeField_of_and_mask hRow hMask)
  obtain ⟨-, hWf⟩ := hReads.admits_iff.1 h
  exact ⟨i, hi.trans (checkRow_eq_ok.2 ⟨hMask, hWf, rfl⟩), hReads⟩

/-- A word the decoder accepts is admitted by a row of the map, which reads the same command. -/
theorem exists_row_of_decode (h : decode w = .ok i) : ∃ row ∈ opcodeMap, row.admits w = true ∧ row.Reads w i := by
  have hMem : opcodeField w ∈ mapOpcodes := by
    by_contra hNot
    rw [decode_of_opcode_not_mem hNot] at h
    cases h
  obtain ⟨row, hRow, hOp⟩ := List.mem_map.1 hMem
  obtain ⟨j, hj, hReads⟩ := decode_of_opcode hRow hOp.symm
  obtain ⟨hMask, hWf, rfl⟩ := checkRow_eq_ok.1 (hj ▸ h)
  exact ⟨row, hRow, hReads.admits_iff.2 ⟨hMask, hWf⟩, hReads⟩

theorem immediate_of_decode {imm : Imm5} (h : decode w = .ok i) (hImm : immediate i = some imm) :
    imm.val = w.toNat % 32 := by
  obtain ⟨_, -, -, hReads⟩ := exists_row_of_decode h
  rw [hReads.immediate_eq imm hImm, immField_val]

/-! ## The reserved opcodes (R87) -/

/-- The seven ranges of R87. -/
def Reserved (op : BitVec 8) : Prop :=
  op.toNat ≤ 0x0F ∨ (0x1B ≤ op.toNat ∧ op.toNat ≤ 0x1F) ∨ (0x22 ≤ op.toNat ∧ op.toNat ≤ 0x2F) ∨
    (0x33 ≤ op.toNat ∧ op.toNat ≤ 0x3F) ∨ (0x47 ≤ op.toNat ∧ op.toNat ≤ 0x4F) ∨
    (0x5A ≤ op.toNat ∧ op.toNat ≤ 0x5F) ∨ 0x67 ≤ op.toNat

theorem reserved_iff {op : BitVec 8} : Reserved op ↔ op ∉ mapOpcodes := by
  unfold Reserved
  revert op
  decide +kernel

/-- The reserved opcode values, in order. -/
def reservedOpcodes : List (BitVec 8) := ((List.finRange 256).map BitVec.ofFin).filter (· ∉ mapOpcodes)

theorem reservedOpcodes_nodup : reservedOpcodes.Nodup :=
  ((List.nodup_finRange 256).map fun _ _ h => BitVec.ofFin.inj h).filter _

theorem reservedOpcodes_length : reservedOpcodes.length = 216 := by decide +kernel

theorem mem_reservedOpcodes {op : BitVec 8} : op ∈ reservedOpcodes ↔ Reserved op := by
  have hAll : op ∈ (List.finRange 256).map BitVec.ofFin :=
    List.mem_map.2 ⟨op.toFin, List.mem_finRange _, rfl⟩
  simp [reservedOpcodes, reserved_iff, hAll]

theorem decode_of_reserved (h : Reserved (opcodeField w)) : decode w = .error .reservedOpcode :=
  decode_of_opcode_not_mem (reserved_iff.1 h)

/-! ## The two statements -/

/-- Settles O3: an admitted word is decoded to the command its row reads, and a decoded word is admitted by the row
of its command, the only row with that mnemonic. -/
theorem decoderAcceptsExactlyTheOpcodeMap : Obligations.DecoderAcceptsExactlyTheOpcodeMap := by
  refine ⟨fun row hRow w => ⟨fun hAdmits => ?decoded, ?admitted⟩, fun w rd ra rb imm h => ?immediate⟩
  case decoded =>
    obtain ⟨i, hi, hReads⟩ := decode_of_admits hRow hAdmits
    exact ⟨i, hi, hReads.mnemonic_eq, hReads.operands_eq.trans (row.operandsOf_eq_ofNat w)⟩
  case admitted =>
    rintro ⟨i, hi, hMnemonic, -⟩
    obtain ⟨row', hRow', hAdmits, hReads⟩ := exists_row_of_decode hi
    rwa [eq_of_mnemonic_eq hRow hRow' (hMnemonic.symm.trans hReads.mnemonic_eq)]
  case immediate =>
    rcases h with h | h | h <;> exact immediate_of_decode h rfl

/-- Settles O5: the listed ranges are the complement of the map's opcodes, where the decoder answers that the opcode
is reserved. -/
theorem reservedOpcodesRaiseIllegalCommand : Obligations.ReservedOpcodesRaiseIllegalCommand := by
  refine ⟨fun w => reserved_iff.trans decode_eq_reserved_iff.symm, fun op => ?noRow,
    ⟨reservedOpcodes, reservedOpcodes_nodup, reservedOpcodes_length, fun op => mem_reservedOpcodes⟩,
    by decide, by decide, fun s w rest h hf hReserved => ?raised⟩
  case noRow => exact reserved_iff.trans (by simp [mapOpcodes])
  case raised =>
    rw [step_hostWriteCmd h]
    exact ⟨_, State.writeCmd_of_illegal hf (decode_of_reserved hReserved), State.raise_entersFault _ _ _⟩

end Sys2Proof
end

section
/-! The FixedPoint family (40_fixedpoint.md R111 to R122, R127 to R130). Every command but the divisions by 0 is one
register write, so each statement comes down to the number the command writes: floors and truncations of exact integers,
the narrow and the widened intermediate, and where the two are the same. -/

namespace Sys2Proof.Machine

/-! ## What each command does -/

section Exec

variable (rd ra rb : Reg) (imm : Imm5) (s : State)

theorem exec_fromint : exec (.fromint rd ra) s = .next (s.write rd (wrap32 (s.sx ra * 256))) := rfl

theorem exec_touint : exec (.touint rd ra) s = .next (s.write rd (wrap32 (asr (s.sx ra) 8))) := rfl

theorem exec_tofrac : exec (.tofrac rd ra) s = .next (s.write rd (s.reg ra &&& 0x000000FF)) := rfl

theorem exec_toint : exec (.toint rd ra) s = .next (s.write rd (wrap32 (tdiv (s.sx ra) 256))) := rfl

theorem exec_add : exec (.add rd ra rb) s = .next (s.write rd (wrap32 (s.sx ra + s.sx rb))) := rfl

theorem exec_sub : exec (.sub rd ra rb) s = .next (s.write rd (wrap32 (s.sx ra - s.sx rb))) := rfl

theorem exec_mul : exec (.mul rd ra rb) s = .next (s.write rd (wrap32 (fxmul (s.sx ra) (s.sx rb)))) := rfl

theorem exec_mul64 : exec (.mul64 rd ra rb) s = .next (s.write rd (mulShift (s.sx ra) (s.sx rb) 8)) := rfl

theorem exec_recimul :
    exec (.recimul rd ra rb imm) s = .next (s.write rd (mulShift (s.sx ra) (s.sx rb) imm.val)) := rfl

variable {rb s}

theorem exec_div (h : s.reg rb ≠ 0) :
    exec (.div rd ra rb) s = .next (s.write rd (wrap32 (tdiv (s32 (wrap32 (s.sx ra * 256))) (s.sx rb)))) :=
  if_neg (mt s32_eq_zero.1 h)

theorem exec_div64 (h : s.reg rb ≠ 0) :
    exec (.div64 rd ra rb) s = .next (s.write rd (wrap32 (tdiv (s.sx ra * 256) (s.sx rb)))) :=
  if_neg (mt s32_eq_zero.1 h)

theorem div_faults (h : s.reg rb = 0) : FaultsWith (.div rd ra rb) s .divideByZero :=
  ⟨_, if_pos (s32_eq_zero.2 h), State.raise_entersFault _ _ _⟩

theorem div64_faults (h : s.reg rb = 0) : FaultsWith (.div64 rd ra rb) s .divideByZero :=
  ⟨_, if_pos (s32_eq_zero.2 h), State.raise_entersFault _ _ _⟩

end Exec

/-! ## A command that is one register write -/

section OneWrite

variable {i : Instr} {s t : State} {rd : Reg} {v : Word}

/-- The write is the whole of the command, so its frame is the frame of the command. -/
theorem completes_of_write {P : State → Prop} (h : exec i s = .next (s.write rd v)) (hv : P (s.write rd v)) :
    Completes i s [rd] P :=
  ⟨_, h, s.onlyWrites_write rd v, hv⟩

theorem reg_of_exec (h : exec i s = .next (s.write rd v)) (ht : exec i s = .next t) : t.reg rd = v := by
  rw [h] at ht
  cases ht
  exact s.reg_write_self rd v

end OneWrite

/-! ## Patterns and the integers they stand for -/

theorem s32_inj {p q : Word} : s32 p = s32 q ↔ p = q := BitVec.toInt_inj

/-- Keeping 32 bits changes an integer by a multiple of 2^32. -/
theorem dvd_s32_wrap32_sub (v : Int) : (2 ^ 32 : Int) ∣ s32 (wrap32 v) - v := by
  rw [s32_wrap32_eq_bmod]
  exact Int.dvd_bmod_sub_self

/-- The product of two signed 32-bit numbers has magnitude at most 2^62. -/
theorem abs_s32_mul_s32_le (p q : Word) : |s32 p * s32 q| ≤ 2 ^ 62 := by
  have hp : |s32 p| ≤ 2 ^ 31 := abs_le.2 ⟨s32_lower p, (s32_upper p).le⟩
  have hq : |s32 q| ≤ 2 ^ 31 := abs_le.2 ⟨s32_lower q, (s32_upper q).le⟩
  calc |s32 p * s32 q| = |s32 p| * |s32 q| := abs_mul _ _
    _ ≤ 2 ^ 31 * 2 ^ 31 := mul_le_mul hp hq (abs_nonneg _) (by norm_num)
    _ = 2 ^ 62 := by norm_num

/-! ## The quotient rounded toward zero -/

theorem tdiv_of_nonneg {n : Int} (hn : 0 ≤ n) (b : Int) : tdiv n b = n / b := Int.tdiv_eq_ediv_of_nonneg hn

/-- A negative dividend is divided by its magnitude. -/
theorem tdiv_of_neg {n : Int} (hn : n < 0) (b : Int) : tdiv n b = -(-n / b) := by
  rw [← tdiv_of_nonneg (by omega), tdiv, tdiv, Int.neg_tdiv, neg_neg]

theorem abs_tdiv (n b : Int) : |tdiv n b| = |n| / |b| := by
  rw [tdiv, Int.abs_eq_natAbs, Int.abs_eq_natAbs, Int.abs_eq_natAbs, Int.natAbs_tdiv]
  rfl

/-- The quotient times the divisor has the sign of the dividend or is 0: with both numbers as signed magnitudes the
signs cancel. -/
theorem tdiv_mul_mul_nonneg (n b : Int) : 0 ≤ tdiv n b * b * n := by
  have hMagnitudes (m c : Nat) : 0 ≤ (m : Int).tdiv c * c * m := by
    rw [← Int.ofNat_tdiv]
    positivity
  rw [tdiv]
  obtain hn | hn := Int.natAbs_eq n <;> obtain hb | hb := Int.natAbs_eq b <;> rw [hn, hb] <;>
    simpa using hMagnitudes n.natAbs b.natAbs

/-- R129: what it says of the quotient of any `n` by any `b` other than 0, and of the pattern written. -/
theorem tdiv_roundsTowardZero (n : Int) {b : Int} (hb : b ≠ 0) : ∃ q : Int,
    wrap32 (tdiv n b) = .ofInt 32 q ∧ |q| * |b| ≤ |n| ∧ |n| < (|q| + 1) * |b| ∧ 0 ≤ q * b * n ∧
    (0 ≤ n → 0 < b → q = n / b) ∧ (n < 0 → 0 < b → q = -(-n / b)) ∧
    (0 ≤ n → b < 0 → q = -(n / -b)) ∧ (n < 0 → b < 0 → q = -n / -b) := by
  have hb' : 0 < |b| := abs_pos.2 hb
  refine ⟨tdiv n b, rfl, ?notAbove, ?within, tdiv_mul_mul_nonneg n b, fun hn _ => tdiv_of_nonneg hn b,
    fun hn _ => tdiv_of_neg hn b, fun hn _ => ?nonnegByNeg, fun hn _ => ?negByNeg⟩
  case notAbove => rw [abs_tdiv]; exact Int.ediv_mul_le _ hb'.ne'
  case within => rw [abs_tdiv]; exact Int.lt_ediv_add_one_mul_self _ hb'
  case nonnegByNeg => rw [tdiv_of_nonneg hn, Int.ediv_neg, neg_neg]
  case negByNeg => rw [tdiv_of_neg hn, Int.ediv_neg]

/-! ## The conversions (R111 to R114, R130) -/

/-- The envelope in which scaling by 256 stays inside 32 bits (R111, R128). -/
theorem s32_wrap32_mul_256 {d : Int} (h₁ : -2 ^ 23 ≤ d) (h₂ : d < 2 ^ 23) : s32 (wrap32 (d * 256)) = d * 256 :=
  s32_wrap32 (by omega) (by omega)

theorem s32_wrap32_asr_8 (p : Word) : s32 (wrap32 (asr (s32 p) 8)) = s32 p / 256 := by
  have h₁ := s32_lower p
  have h₂ := s32_upper p
  exact s32_wrap32 (by unfold asr; omega) (by unfold asr; omega)

/-- The form of TOINT that R114 gives beside the truncation: a negative operand is biased before the floor. -/
theorem tdiv_256_eq_biased_floor (d : Int) : tdiv d 256 = (d + if d < 0 then 255 else 0) / 256 := by
  rcases lt_or_ge d 0 with hd | hd
  · rw [tdiv_of_neg hd, if_pos hd]
    omega
  · rw [tdiv_of_nonneg hd, if_neg (by omega), add_zero]

theorem tdiv_256_eq_zero {d : Int} (h₁ : -255 ≤ d) (h₂ : d ≤ 255) : tdiv d 256 = 0 := by
  rw [tdiv_256_eq_biased_floor]
  omega

theorem s32_wrap32_tdiv_256 (p : Word) : s32 (wrap32 (tdiv (s32 p) 256)) = tdiv (s32 p) 256 := by
  have h₁ := s32_lower p
  have h₂ := s32_upper p
  have h := tdiv_256_eq_biased_floor (s32 p)
  exact s32_wrap32 (by omega) (by omega)

theorem toNat_and_255 (p : Word) : (p &&& 0x000000FF).toNat = p.toNat % 256 := by
  rw [BitVec.toNat_and]
  exact Nat.and_two_pow_sub_one_eq_mod _ 8

/-- The signed and the unsigned reading have the same low 8 bits. -/
theorem s32_emod_256 (p : Word) : s32 p % 256 = (p.toNat % 256 : Nat) := by
  rw [s32, BitVec.toInt_eq_toNat_cond]
  split <;> omega

/-- The floor and the truncation of a FixedPoint number agree where nothing is cut off below 0 (R130). -/
theorem floor_256_eq_tdiv_iff (d : Int) : d / 256 = tdiv d 256 ↔ 0 ≤ d ∨ (256 : Int) ∣ d := by
  rw [tdiv_256_eq_biased_floor]
  omega

/-- Elsewhere the floor is one less (R130). -/
theorem floor_256_of_ne_tdiv {d : Int} (h : d / 256 ≠ tdiv d 256) : d / 256 = tdiv d 256 - 1 := by
  rw [tdiv_256_eq_biased_floor] at h ⊢
  omega

/-- Settles O23: scaling by 256 stays inside 32 bits in the range of R111, and at 2^23 wraps to the sign bit. -/
theorem fromintScalesBy256 : Obligations.FromintScalesBy256 := by
  intro rd ra s
  refine completes_of_write (exec_fromint rd ra s) ?_
  rw [State.reg_write_self]
  refine ⟨rfl, s32_wrap32_mul_256, fun h => ?corner⟩
  case corner =>
    have hs : s.sx ra = 2 ^ 23 := h
    rw [hs]
    rfl

/-- Settles O24: the floor by 256 always fits, and the low 8 bits are the remainder of both readings of the operand. -/
theorem touintAndTofracSplitTheOperand : Obligations.TouintAndTofracSplitTheOperand := by
  intro rd ra s
  have hFloor := s32_wrap32_asr_8 (s.reg ra)
  refine ⟨completes_of_write (exec_touint rd ra s) ?floor, completes_of_write (exec_tofrac rd ra s) ?fraction⟩ <;>
    rw [State.reg_write_self]
  case floor => exact ⟨hFloor, fun h => hFloor.trans (tdiv_of_nonneg h 256).symm⟩
  case fraction =>
    refine ⟨rfl, toNat_and_255 _, ?_⟩
    rw [toNat_and_255, ← s32_emod_256]
    exact (Int.mul_ediv_add_emod _ _).symm

/-- Settles O25: the truncation by 256 always fits, and is R114's biased floor. -/
theorem tointRoundsTowardZero : Obligations.TointRoundsTowardZero := by
  intro rd ra s
  have hTrunc := s32_wrap32_tdiv_256 (s.reg ra)
  refine completes_of_write (exec_toint rd ra s) ?_
  rw [State.reg_write_self]
  exact ⟨hTrunc, hTrunc.trans (tdiv_256_eq_biased_floor _),
    fun h₁ h₂ => s32_eq_zero.1 (hTrunc.trans (tdiv_256_eq_zero h₁ h₂))⟩

theorem fromFloat_neg_three_halves : fromFloat (-3 / 2) = some 0xFFFFFE80 := by decide +kernel

/-- Settles O26: FROMINT's result is an exact multiple of 256, which TOINT and TOUINT both divide; in general the two
write the truncation and the floor of one number. -/
theorem conversionLaws : Obligations.ConversionLaws := by
  refine ⟨fun ra rd rq s t u v h₁ h₂ ht hu hv => ?roundTrip, fun ra rd s u v hu hv => ?compare,
    fun w hw s t rd ra hs ht => ?half⟩
  case roundTrip =>
    have hScaled : t.sx rd = s.sx ra * 256 := by
      rw [State.sx, reg_of_exec (exec_fromint rd ra s) ht]
      exact s32_wrap32_mul_256 h₁ h₂
    rw [reg_of_exec (exec_toint rq rd t) hu, reg_of_exec (exec_touint rq rd t) hv, hScaled, tdiv, asr,
      Int.mul_tdiv_cancel _ (by norm_num), show (2 ^ 8 : Int) = 256 by norm_num,
      Int.mul_ediv_cancel _ (by norm_num)]
    exact ⟨wrap32_s32 _, wrap32_s32 _⟩
  case compare =>
    have hFloor : s32 (u.reg rd) = s32 (s.reg ra) / 256 := by
      rw [reg_of_exec (exec_touint rd ra s) hu]
      exact s32_wrap32_asr_8 _
    have hTrunc : s32 (v.reg rd) = tdiv (s32 (s.reg ra)) 256 := by
      rw [reg_of_exec (exec_toint rd ra s) hv]
      exact s32_wrap32_tdiv_256 _
    rw [ne_eq, ← s32_inj, hFloor, hTrunc]
    refine ⟨floor_256_eq_tdiv_iff _, fun h => ?_⟩
    have hBelow := floor_256_of_ne_tdiv h
    rw [← hFloor, ← hTrunc] at hBelow
    exact hBelow
  case half =>
    rw [fromFloat_neg_three_halves, Option.some.injEq] at hw
    rw [reg_of_exec (exec_toint rd ra s) ht, State.sx, hs, ← hw]
    rfl

/-! ## ADD and SUB (R115, R116) -/

/-- Settles O27: the wrapped signed sum and difference are those of the patterns, which have one unsigned reading. -/
theorem addAndSubWrap : Obligations.AddAndSubWrap := by
  intro rd ra rb s
  have hAdd : wrap32 (s.sx ra + s.sx rb) = s.reg ra + s.reg rb := by
    simp only [State.sx, wrap32_add, wrap32_s32]
  have hSub : wrap32 (s.sx ra - s.sx rb) = s.reg ra - s.reg rb := by
    simp only [State.sx, wrap32_sub, wrap32_s32]
  refine ⟨completes_of_write (exec_add rd ra rb s) ?sum, completes_of_write (exec_sub rd ra rb s) ?difference⟩ <;>
    rw [State.reg_write_self]
  case sum => exact ⟨rfl, by rw [hAdd, BitVec.toNat_add]⟩
  case difference =>
    refine ⟨rfl, ?_, fun h => ?_⟩
    · rw [hSub, BitVec.toNat_sub]
      omega
    · rw [hSub, h]
      exact BitVec.sub_self _

/-! ## The multiplications (R117, R118, R121) -/

/-- The 32-bit datapath of R117. -/
theorem wrap32_fxmul_eq_datapath (p q : Word) : wrap32 (fxmul (s32 p) (s32 q)) = (p * q).sshiftRight 8 := by
  have hProduct : wrap32 (s32 p * s32 q) = p * q := by rw [wrap32_mul, wrap32_s32, wrap32_s32]
  have hShift : fxmul (s32 p) (s32 q) = s32 ((p * q).sshiftRight 8) := by
    rw [fxmul_eq, hProduct, s32, s32, BitVec.toInt_sshiftRight, Int.shiftRight_eq_div_pow]
    norm_num
  rw [hShift, wrap32_s32]

/-- Inside the product bound the narrow product is the widened one (R117, R127). -/
theorem fxmul_eq_floor {a b : Int} (h₁ : -2 ^ 31 ≤ a * b) (h₂ : a * b < 2 ^ 31) : fxmul a b = a * b / 2 ^ 8 := by
  rw [fxmul_eq, s32_wrap32 h₁ h₂]

/-- Always, the narrow product misses the widened one by a multiple of 2^24 (R117). -/
theorem dvd_fxmul_sub_floor (a b : Int) : (2 ^ 24 : Int) ∣ fxmul a b - a * b / 2 ^ 8 := by
  have h := dvd_s32_wrap32_sub (a * b)
  rw [fxmul_eq]
  omega

theorem s32_wrap32_fxmul (a b : Int) : s32 (wrap32 (fxmul a b)) = fxmul a b := by
  rw [fxmul, wrap32_s32]

/-- The 64-bit datapath of R118 and R121: no product of sign-extended operands wraps. -/
theorem mulShift_eq_datapath (p q : Word) (n : Nat) :
    mulShift (s32 p) (s32 q) n = ((p.signExtend 64 * q.signExtend 64).sshiftRight n).setWidth 32 := by
  have hProduct : (p.signExtend 64 * q.signExtend 64).toInt = s32 p * s32 q := by
    rw [BitVec.toInt_mul, BitVec.toInt_signExtend_of_le (by norm_num), BitVec.toInt_signExtend_of_le (by norm_num)]
    obtain ⟨h₁, h₂⟩ := abs_le.1 (abs_s32_mul_s32_le p q)
    exact Int.bmod_eq_of_le (by norm_num; exact le_trans (by norm_num) h₁) (lt_of_le_of_lt h₂ (by norm_num))
  rw [← BitVec.signExtend_eq_setWidth_of_le _ (by norm_num), BitVec.signExtend, BitVec.toInt_sshiftRight, hProduct,
    Int.shiftRight_eq_div_pow, mulShift, asr, wrap32]
  norm_num

/-- Settles O28: the kept product differs from the exact one by a multiple of 2^32, which the shift makes 2^24. -/
theorem mulIsTheNarrowProduct : Obligations.MulIsTheNarrowProduct := by
  intro rd ra rb s
  have hValue := s32_wrap32_fxmul (s.sx ra) (s.sx rb)
  refine completes_of_write (exec_mul rd ra rb s) ?_
  rw [State.reg_write_self]
  refine ⟨congrArg wrap32 (fxmul_eq _ _), fun h₁ h₂ => hValue.trans (fxmul_eq_floor h₁ h₂), ?error,
    wrap32_fxmul_eq_datapath _ _⟩
  case error =>
    have h := dvd_fxmul_sub_floor (s.sx ra) (s.sx rb)
    rwa [← hValue] at h

/-- Settles O29: the floor of the exact product is wrapped only where it does not fit. -/
theorem mul64IsTheWidenedProduct : Obligations.Mul64IsTheWidenedProduct := by
  intro rd ra rb s
  refine completes_of_write (exec_mul64 rd ra rb s) ?_
  rw [State.reg_write_self]
  exact ⟨rfl, s32_wrap32, mulShift_eq_datapath _ _ 8⟩

/-- Settles O34: RECIMUL is the multiply-shift by its immediate, of which MUL64 is the one by 8. -/
theorem recimulIsTheMultiplyShift : Obligations.RecimulIsTheMultiplyShift := by
  intro rd ra rb imm s
  refine completes_of_write (exec_recimul rd ra rb imm s) ?_
  rw [State.reg_write_self]
  refine ⟨rfl, mulShift_eq_datapath _ _ _, fun h => ?eight, fun h => ?zero⟩
  case eight => rw [exec_mul64, h]
  case zero => rw [h, mulShift, asr, pow_zero, Int.ediv_one, wrap32_mul, State.sx, State.sx, wrap32_s32, wrap32_s32]

/-! ## The divisions (R119, R120, R129): their quotients are those of `tdiv_roundsTowardZero` -/

/-- The scaled dividend has magnitude at most 2^39, and no divisor makes the quotient larger (R120). -/
theorem abs_tdiv_scaled_le (p q : Word) : |tdiv (s32 p * 256) (s32 q)| ≤ 2 ^ 39 := by
  have h₁ := s32_lower p
  have h₂ := s32_upper p
  have h : |tdiv (s32 p * 256) (s32 q)| ≤ |s32 p * 256| := by
    rw [Int.abs_eq_natAbs, Int.abs_eq_natAbs]
    exact_mod_cast Int.natAbs_tdiv_le_natAbs _ _
  exact h.trans (abs_le.2 ⟨by omega, by omega⟩)

/-- Settles O31: inside the envelope the scaled dividend is kept whole; its least value by -1 wraps to itself. -/
theorem divIsTheNarrowQuotient : Obligations.DivIsTheNarrowQuotient := by
  intro rd ra rb s
  refine ⟨fun hb => completes_of_write (exec_div rd ra hb) ?_, div_faults rd ra⟩
  rw [State.reg_write_self]
  refine ⟨rfl, fun h₁ h₂ => ?exact, fun hn hm => ?corner⟩
  case exact => exact congrArg (fun n => wrap32 (tdiv n (s.sx rb))) (s32_wrap32_mul_256 h₁ h₂)
  case corner =>
    have hn' : wrap32 (s.sx ra * 256) = 0x80000000 := hn
    rw [hn', State.sx, hm]
    rfl

/-- Settles O32: the exact scaled dividend bounds the quotient. -/
theorem div64IsTheWidenedQuotient : Obligations.Div64IsTheWidenedQuotient := by
  intro rd ra rb s
  refine ⟨fun hb => completes_of_write (exec_div64 rd ra hb) ?_, div64_faults rd ra⟩
  rw [State.reg_write_self]
  exact ⟨rfl, abs_tdiv_scaled_le _ _⟩

/-- Settles O33: both divisions write a quotient rounded toward zero, whose floor forms hold for every dividend. -/
theorem divisionRoundsTowardZeroAtEverySign : Obligations.DivisionRoundsTowardZeroAtEverySign := by
  intro rd ra rb s
  refine ⟨fun hb => ?completes, fun hb => ⟨div64_faults rd ra hb, div_faults rd ra hb⟩⟩
  have hb' : s.sx rb ≠ 0 := mt s32_eq_zero.1 hb
  refine ⟨completes_of_write (exec_div64 rd ra hb) ?_, completes_of_write (exec_div rd ra hb) ?_⟩ <;>
    rw [State.reg_write_self] <;> exact tdiv_roundsTowardZero _ hb'

/-! ## The narrow and the widened path (R127, R128) -/

/-- 256.0 in `r0` and in `r1`: the product of the patterns is 2^32, of which 32 bits keep nothing. -/
def wideProductState : State := (State.reset.write 0 0x00010000).write 1 0x00010000

theorem mul_wideProductState : exec (.mul 2 0 1) wideProductState = .next (wideProductState.write 2 0) := rfl

theorem mul64_wideProductState :
    exec (.mul64 2 0 1) wideProductState = .next (wideProductState.write 2 0x01000000) := rfl

theorem mul_ne_mul64_wideProductState : exec (.mul 2 0 1) wideProductState ≠ exec (.mul64 2 0 1) wideProductState := by
  intro h
  have hWide : (wideProductState.write 2 0).reg 2 = 0x01000000 :=
    reg_of_exec mul64_wideProductState (h.symm.trans mul_wideProductState)
  rw [State.reg_write_self] at hWide
  exact absurd hWide (by decide)

/-- Settles O30: inside the envelope each pair of commands writes the same pattern to the same register. -/
theorem widenedPathsAgreeInsideTheEnvelope : Obligations.WidenedPathsAgreeInsideTheEnvelope := by
  refine ⟨fun rd ra rb s h₁ h₂ => ?mul, fun rd ra rb s hb h₁ h₂ => ?div,
    fun rd ra rb s hb => ⟨div_faults rd ra hb, div64_faults rd ra hb⟩,
    wideProductState, mul_ne_mul64_wideProductState⟩
  case mul =>
    have hProduct : fxmul (s.sx ra) (s.sx rb) = s.sx ra * s.sx rb / 2 ^ 8 := fxmul_eq_floor h₁ h₂
    rw [exec_mul, exec_mul64, hProduct, mulShift, asr]
  case div =>
    have hScaled : s32 (wrap32 (s.sx ra * 256)) = s.sx ra * 256 := s32_wrap32_mul_256 h₁ h₂
    rw [exec_div rd ra hb, exec_div64 rd ra hb, hScaled]

/-! ## RECIPK (R122) -/

section RecipK

variable {a : Int} {fp : Nat}

/-- The ceiling of a quotient as the floor of R122. -/
theorem ceil_div_eq_floor (n : Int) (ha : 1 ≤ a) : ⌈(n : ℚ) / a⌉ = (n + a - 1) / a := by
  have ha' : (0 : ℚ) < a := by exact_mod_cast ha
  have hBelow := Int.ediv_mul_le (n + a - 1) (show a ≠ 0 by omega)
  have hAbove := Int.lt_ediv_add_one_mul_self (n + a - 1) (show 0 < a by omega)
  rw [Int.ceil_eq_iff, lt_div_iff₀ ha', div_le_iff₀ ha']
  constructor
  · exact_mod_cast (by linarith : ((n + a - 1) / a - 1) * a < n)
  · exact_mod_cast (by linarith : n ≤ (n + a - 1) / a * a)

/-- The one value that does not fit a signed 32-bit register is that of `a = 1`, `fp = 31`. -/
theorem recipK_value_lt (ha : 1 ≤ a) (hfp : fp ≤ 31) (h : ¬(a = 1 ∧ fp = 31)) : (2 ^ fp + a - 1) / a < 2 ^ 31 := by
  rcases eq_or_lt_of_le ha with rfl | ha'
  · have hPow : (2 : Int) ^ fp < 2 ^ 31 := pow_lt_pow_right₀ (by norm_num) (by omega)
    simpa using hPow
  · have hPow : (2 : Int) ^ fp ≤ 2 ^ 31 := pow_le_pow_right₀ (by norm_num) hfp
    exact Int.ediv_lt_of_lt_mul (by omega) (by omega)

theorem recipK_of_pos (ha : 1 ≤ a) (hfp : fp ≤ 31) (h : ¬(a = 1 ∧ fp = 31)) :
    recipK a fp = some ((2 ^ fp + a - 1) / a) := by
  rw [recipK, if_pos ⟨ha, hfp⟩]
  exact if_pos (recipK_value_lt ha hfp h)

theorem recipK_of_nonpos (ha : a ≤ 0) : recipK a fp = none := if_neg (by omega)

end RecipK

/-- Settles O36: RECIPK computes the floor form, and the floor form is the ceiling. -/
theorem recipkIsTheCeiling : Obligations.RecipkIsTheCeiling := by
  refine ⟨fun a fp ha hfp h => ?_, by decide, fun a fp ha => recipK_of_nonpos ha⟩
  have hCeil : ⌈(2 ^ fp : ℚ) / a⌉ = (2 ^ fp + a - 1) / a := by simpa using ceil_div_eq_floor (2 ^ fp) ha
  exact ⟨by rw [recipK_of_pos ha hfp h, hCeil], hCeil⟩

end Sys2Proof.Machine
end

section
/-! The Interpolator (41_interpolator.md R140 to R142). An interpolated value is the floor of a weighted mean of two
neighbouring entries, so it lies between them and fits the 32 bits it is written to; what is left of each command is the
range of its integer index. -/

namespace Sys2Proof.Machine

/-! ## What each command does -/

section Exec

variable (rd : Reg) {ra : Reg} {imm : Imm5} {s : State}

theorem exec_lerp16 (h : lsr (s.reg ra) imm.val ≤ 512) :
    exec (.lerp16 rd ra imm) s = .next (s.write rd (wrap32 (lerp sinLut (s.ux ra) imm.val))) :=
  if_neg (by omega)

theorem exec_lerp32 (h₁ : 1 ≤ lsr (s.reg ra) imm.val) (h₂ : lsr (s.reg ra) imm.val ≤ 255) :
    exec (.lerp32 rd ra imm) s = .next (s.write rd (wrap32 (lerp divLutSigned (s.ux ra) imm.val))) :=
  if_neg (by omega)

theorem lerp16_faults (h : 512 < lsr (s.reg ra) imm.val) : FaultsWith (.lerp16 rd ra imm) s .lutIndex :=
  ⟨_, if_pos h, State.raise_entersFault _ _ _⟩

theorem lerp32_faults (h : lsr (s.reg ra) imm.val < 1 ∨ 255 < lsr (s.reg ra) imm.val) :
    FaultsWith (.lerp32 rd ra imm) s .lutIndex :=
  ⟨_, if_pos h, State.raise_entersFault _ _ _⟩

end Exec

/-! ## The interpolation function (R140) -/

section Lerp

variable {T : Nat → Int} {x s : Nat}

/-- The fraction of R140, what the integer index leaves of `x`, is the low `s` bits. -/
theorem lerp_eq_add_ediv (T : Nat → Int) (x s : Nat) :
    lerp T x s = T (x / 2 ^ s) + (T (x / 2 ^ s + 1) - T (x / 2 ^ s)) * (x % 2 ^ s : Nat) / 2 ^ s := by
  rw [Nat.mod_eq_sub_div_mul]
  rfl

/-- The floor of a weighted mean, the weights `k - f` and `f` of the total `k`, lies where the two numbers do. -/
theorem add_mul_ediv_mem_Icc {a b f k lo hi : Int} (ha : a ∈ Set.Icc lo hi) (hb : b ∈ Set.Icc lo hi) (hf : 0 ≤ f)
    (hfk : f < k) : a + (b - a) * f / k ∈ Set.Icc lo hi := by
  obtain ⟨haLo, haHi⟩ := ha
  obtain ⟨hbLo, hbHi⟩ := hb
  have hk : 0 < k := by omega
  have hRest : 0 ≤ k - f := by omega
  have hMean : a + (b - a) * f / k = (a * (k - f) + b * f) / k := by
    rw [add_comm, ← Int.add_mul_ediv_right _ _ hk.ne']
    ring_nf
  rw [hMean]
  constructor
  · rw [Int.le_ediv_iff_mul_le hk]
    linarith [mul_le_mul_of_nonneg_right haLo hRest, mul_le_mul_of_nonneg_right hbLo hf]
  · rw [← Int.lt_add_one_iff, Int.ediv_lt_iff_lt_mul hk]
    linarith [mul_le_mul_of_nonneg_right haHi hRest, mul_le_mul_of_nonneg_right hbHi hf]

/-- The interpolated value lies between the two entries (R143). -/
theorem lerp_mem_uIcc (T : Nat → Int) (x s : Nat) : lerp T x s ∈ Set.uIcc (T (x / 2 ^ s)) (T (x / 2 ^ s + 1)) := by
  have hFraction : x % 2 ^ s < 2 ^ s := Nat.mod_lt _ (by positivity)
  rw [lerp_eq_add_ediv]
  exact add_mul_ediv_mem_Icc Set.left_mem_uIcc Set.right_mem_uIcc (by positivity) (by exact_mod_cast hFraction)

/-- Between entries no larger than the 1.0 of the reciprocal table no wrap happens (R143). -/
theorem s32_wrap32_lerp (ha : T (x / 2 ^ s) ∈ Set.Icc (-65536) 65536)
    (hb : T (x / 2 ^ s + 1) ∈ Set.Icc (-65536) 65536) : s32 (wrap32 (lerp T x s)) = lerp T x s := by
  obtain ⟨hLow, hHigh⟩ := Set.uIcc_subset_Icc ha hb (lerp_mem_uIcc T x s)
  exact s32_wrap32 (by omega) (by omega)

end Lerp

/-! ## The entries the commands read -/

section Entries

variable {i : Nat}

theorem sinLut_mem_Icc (hi : i ≤ 513) : sinLut i ∈ Set.Icc (-65536) 65536 := by
  obtain ⟨hLow, hHigh⟩ := sinLut_bounds hi
  exact ⟨by omega, by omega⟩

/-- The entries of the reciprocal table are so small that their signed and unsigned readings agree (R58, R142). -/
theorem divLutSigned_eq_toNat (h₁ : 1 ≤ i) (h₂ : i ≤ 256) : divLutSigned i = (divLutWord i).toNat := by
  obtain ⟨-, hHigh⟩ := roundedRecip_bounds h₁ h₂
  exact BitVec.toInt_eq_toNat_of_lt (by rw [divLutWord_toNat h₁ h₂]; omega)

theorem divLutSigned_mem_Icc (h₁ : 1 ≤ i) (h₂ : i ≤ 256) : divLutSigned i ∈ Set.Icc (-65536) 65536 := by
  obtain ⟨-, hHigh⟩ := roundedRecip_bounds h₁ h₂
  rw [divLutSigned_eq_toNat h₁ h₂, divLutWord_toNat h₁ h₂]
  exact ⟨by omega, by omega⟩

end Entries

/-! ## The two statements -/

/-- Settles O38: an index up to 512 and its neighbour are entries of the table, and the value between them is written
whole. -/
theorem lerp16InterpolatesTheSineTable : Obligations.Lerp16InterpolatesTheSineTable := by
  intro rd ra imm s i f
  refine ⟨fun hi => completes_of_write (exec_lerp16 rd hi) ?_, lerp16_faults rd⟩
  have hEntry := sinLut_mem_Icc (show i ≤ 513 by omega)
  have hNext := sinLut_mem_Icc (show i + 1 ≤ 513 by omega)
  rw [State.reg_write_self]
  exact (s32_wrap32_lerp hEntry hNext).trans (lerp_eq_add_ediv _ _ _)

/-- Settles O39: an index from 1 to 255 and its neighbour are entries past the sentinel, the same number in either
reading. -/
theorem lerp32InterpolatesTheReciprocalTable : Obligations.Lerp32InterpolatesTheReciprocalTable := by
  intro rd ra imm s i f entry
  refine ⟨fun h₁ h₂ => completes_of_write (exec_lerp32 rd h₁ h₂) ?_, lerp32_faults rd⟩
  have hEntry : divLutSigned i = entry i := divLutSigned_eq_toNat h₁ (by omega)
  have hNext : divLutSigned (i + 1) = entry (i + 1) := divLutSigned_eq_toNat (by omega) (by omega)
  rw [State.reg_write_self, ← hEntry, ← hNext]
  exact (s32_wrap32_lerp (divLutSigned_mem_Icc h₁ (by omega)) (divLutSigned_mem_Icc (by omega) (by omega))).trans
    (lerp_eq_add_ediv _ _ _)

end Sys2Proof.Machine
end

section
/-! The LutEngine (42_lutengine.md R150 to R152). Each command is one lookup: a masked index never leaves the sine
table, so SIN and COS complete for every angle, and RECIP reads the reciprocal table inside its domain only. -/

namespace Sys2Proof.Machine

/-! ## What each command does -/

section Exec

variable (rd ra : Reg) (s : State)

theorem exec_sin : exec (.sin rd ra) s = .next (s.write rd (wrap32 (sinSample (s.reg ra) 0))) := rfl

theorem exec_cos : exec (.cos rd ra) s = .next (s.write rd (wrap32 (sinSample (s.reg ra) 128))) := rfl

variable {ra s}

theorem exec_recip (h₁ : 1 ≤ (s.reg ra).toNat) (h₂ : (s.reg ra).toNat ≤ 255) :
    exec (.recip rd ra) s = .next (s.write rd (divLutWord (s.reg ra).toNat)) :=
  if_neg (not_or.2 ⟨Nat.not_lt.2 h₁, Nat.not_lt.2 h₂⟩)

theorem recip_faults (h : (s.reg ra).toNat < 1 ∨ 255 < (s.reg ra).toNat) : FaultsWith (.recip rd ra) s .lutDomain :=
  ⟨_, if_pos h, State.raise_entersFault _ _ _⟩

end Exec

/-! ## The sine sample of an angle -/

section SineSample

variable (theta : Word) (k : Nat)

/-- The mask `0x1FF` of R150 keeps the index modulo 512, one turn of samples. -/
theorem sinSample_eq_sinLut : sinSample theta k = sinLut ((theta.toNat / 128 + k) % 512) :=
  congrArg sinLut (Nat.and_two_pow_sub_one_eq_mod _ 9)

/-- A sample is an entry of the table, so writing it to a register loses nothing. -/
theorem s32_wrap32_sinSample : s32 (wrap32 (sinSample theta k)) = sinSample theta k := by
  have hIndex : (theta.toNat / 128 + k) % 512 ≤ 513 := by omega
  obtain ⟨hLow, hHigh⟩ := sinLut_bounds hIndex
  rw [sinSample_eq_sinLut]
  exact s32_wrap32 (by omega) (by omega)

end SineSample

/-! ## The two statements -/

/-- Settles O41: both commands write a sample whole, SIN the angle's own and COS the one 128 further. -/
theorem sinAndCosReadTheMaskedSample : Obligations.SinAndCosReadTheMaskedSample := by
  intro rd ra s
  refine ⟨completes_of_write (exec_sin rd ra s) ?sin, completes_of_write (exec_cos rd ra s) ?cos⟩ <;>
    rw [State.reg_write_self]
  case sin => exact (s32_wrap32_sinSample _ 0).trans (sinSample_eq_sinLut _ 0)
  case cos => exact (s32_wrap32_sinSample _ 128).trans (sinSample_eq_sinLut _ 128)

/-- Settles O42: inside the domain the argument is an index from 1 to 255, where the table holds R54's rounded
quotient. -/
theorem recipIsTheRoundedReciprocal : Obligations.RecipIsTheRoundedReciprocal := by
  intro rd ra s
  refine ⟨fun h₁ h₂ => completes_of_write (exec_recip rd h₁ h₂) ?_, recip_faults rd⟩
  rw [State.reg_write_self]
  exact ⟨rfl, divLutWord_toNat h₁ (by omega)⟩

end Sys2Proof.Machine
end

section
/-! Commands with group operands (30_encoding.md R83, R84, R88). The bounds of a command's groups decide twice: its word
decodes to it only inside them, and its meaning is the group write only inside them. What that says of a command is
stated here once for all of them; the set commands, which do nothing else, are settled with it. -/

namespace Sys2Proof.Machine

/-! ## The bounds of an operand -/

section Fits

variable (r : Reg)

@[simp] theorem fits_reg : Operand.fits (.reg, r) = true := decide_eq_true r.isLt

@[simp] theorem fits_point : Operand.fits (.point, r) = true ↔ r.val ≤ 14 := by
  rw [Operand.fits, decide_eq_true_iff]
  exact Nat.add_le_add_iff_right (n := 2)

@[simp] theorem fits_vector : Operand.fits (.vector, r) = true ↔ r.val ≤ 13 := by
  rw [Operand.fits, decide_eq_true_iff]
  exact Nat.add_le_add_iff_right (n := 3)

@[simp] theorem fits_rect : Operand.fits (.rect, r) = true ↔ r.val ≤ 12 := by
  rw [Operand.fits, decide_eq_true_iff]
  exact Nat.add_le_add_iff_right (n := 4)

end Fits

/-! ## The word of a command whose group runs past `r15` -/

section Illegal

variable {i : Instr} {p : Prop}

/-- The decoder reads from a command's word the opcode of its row and the command's own operands, so what is left of
decoding is the row's two checks. -/
theorem decode_encode_eq_checkRow (i : Instr) :
    ∃ matchBits mask, decode (encode i) = checkRow (encode i) matchBits mask i := by
  cases i <;> exact ⟨_, _, by
    simp only [decode, encode, opcodeField_encodeR, rdField_encodeR, raField_encodeR, rbField_encodeR,
      rcField_encodeR, reField_encodeR, opcodeField_encodeI, rdField_encodeI, raField_encodeI, rbField_encodeI,
      immField_encodeI]
    rfl⟩

theorem wellFormed_of_decode_encode {j : Instr} (h : decode (encode i) = .ok j) : i.wellFormed = true := by
  obtain ⟨matchBits, mask, hCheck⟩ := decode_encode_eq_checkRow i
  obtain ⟨-, hWf, -⟩ := checkRow_eq_ok.1 (hCheck ▸ h)
  exact hWf

/-- R88: where the bounds need `p`, the word of a command without `p` is illegal. -/
theorem illegalUnless_of_wellFormed (h : i.wellFormed = true → p) : IllegalUnless i p := by
  intro hp s rest hScript hf
  rw [step_hostWriteCmd hScript]
  cases hd : decode (encode i) with
  | error e => exact ⟨_, State.writeCmd_of_illegal hf hd, State.raise_entersFault _ _ _⟩
  | ok j => exact absurd (h (wellFormed_of_decode_encode hd)) hp

end Illegal

/-! ## A command that is one group write -/

section GroupWrite

variable {i : Instr} {s : State} {rd : Reg} {a b c d : Word} {P : State → Prop}

theorem completes_of_writeGroup_two (h : exec i s = .next (s.writeGroup rd [a, b]))
    (hP : ∀ t : State, t.reg rd = a → t.reg (rd + 1) = b → P t) : Completes i s [rd, rd + 1] P := by
  obtain ⟨h₀, h₁, -⟩ := s.writeGroup_two rd a b
  exact ⟨_, h, s.onlyWrites_two rd a b, hP _ h₀ h₁⟩

theorem completes_of_writeGroup_three (h : exec i s = .next (s.writeGroup rd [a, b, c]))
    (hP : ∀ t : State, t.reg rd = a → t.reg (rd + 1) = b → t.reg (rd + 2) = c → P t) :
    Completes i s [rd, rd + 1, rd + 2] P := by
  obtain ⟨h₀, h₁, h₂, -⟩ := s.writeGroup_three rd a b c
  exact ⟨_, h, s.onlyWrites_three rd a b c, hP _ h₀ h₁ h₂⟩

theorem completes_of_writeGroup_four (h : exec i s = .next (s.writeGroup rd [a, b, c, d]))
    (hP : ∀ t : State, t.reg rd = a → t.reg (rd + 1) = b → t.reg (rd + 2) = c → t.reg (rd + 3) = d → P t) :
    Completes i s [rd, rd + 1, rd + 2, rd + 3] P := by
  obtain ⟨h₀, h₁, h₂, h₃, -⟩ := s.writeGroup_four rd a b c d
  exact ⟨_, h, s.onlyWrites_four rd a b c d, hP _ h₀ h₁ h₂ h₃⟩

end GroupWrite

/-! ## The set commands (R161, R181, R201) -/

section SetCommands

variable {rd ra rb rc re : Reg}

theorem wellFormed_ptset : (Instr.ptset rd ra rb).wellFormed = true ↔ rd.val ≤ 14 := by
  simp [Instr.wellFormed, Instr.operands]

theorem wellFormed_vset : (Instr.vset rd ra rb rc).wellFormed = true ↔ rd.val ≤ 13 := by
  simp [Instr.wellFormed, Instr.operands]

theorem wellFormed_rcset : (Instr.rcset rd ra rb rc re).wellFormed = true ↔ rd.val ≤ 12 := by
  simp [Instr.wellFormed, Instr.operands]

variable (s : State)

theorem exec_ptset (h : (Instr.ptset rd ra rb).wellFormed = true) :
    exec (.ptset rd ra rb) s = .next (s.writeGroup rd [s.reg ra, s.reg rb]) :=
  s.ifLegal_of_wellFormed h _

theorem exec_vset (h : (Instr.vset rd ra rb rc).wellFormed = true) :
    exec (.vset rd ra rb rc) s = .next (s.writeGroup rd [s.reg ra, s.reg rb, s.reg rc]) :=
  s.ifLegal_of_wellFormed h _

theorem exec_rcset (h : (Instr.rcset rd ra rb rc re).wellFormed = true) :
    exec (.rcset rd ra rb rc re) s = .next (s.writeGroup rd [s.reg ra, s.reg rb, s.reg rc, s.reg re]) :=
  s.ifLegal_of_wellFormed h _

end SetCommands

/-- Settles O46: each command is one group write of patterns that were all read from the state before it. -/
theorem setCommandsCopyPatterns : Obligations.SetCommandsCopyPatterns := by
  refine ⟨fun rd ra rb s => ⟨illegalUnless_of_wellFormed wellFormed_ptset.1, fun h => ?point⟩,
    fun rd ra rb rc s => ⟨illegalUnless_of_wellFormed wellFormed_vset.1, fun h => ?vector⟩,
    fun rd ra rb rc re s => ⟨illegalUnless_of_wellFormed wellFormed_rcset.1, fun h => ?rect⟩⟩
  case point => exact completes_of_writeGroup_two (exec_ptset s (wellFormed_ptset.2 h)) fun _ h₀ h₁ => ⟨h₀, h₁⟩
  case vector =>
    exact completes_of_writeGroup_three (exec_vset s (wellFormed_vset.2 h)) fun _ h₀ h₁ h₂ => ⟨h₀, h₁, h₂⟩
  case rect =>
    exact completes_of_writeGroup_four (exec_rcset s (wellFormed_rcset.2 h)) fun _ h₀ h₁ h₂ h₃ => ⟨h₀, h₁, h₂, h₃⟩

end Sys2Proof.Machine
end

section
/-! The Point family (43_point.md R162 to R167). The components are plain 32-bit integers: each command writes `wrap32`
of an exact integer, which as `wrap32` is a ring homomorphism is also the 32-bit operation on the patterns. -/

namespace Sys2Proof.Machine

/-! ## What each command does -/

section Exec

variable {rd ra rb : Reg}

theorem wellFormed_ptadd :
    (Instr.ptadd rd ra rb).wellFormed = true ↔ rd.val ≤ 14 ∧ ra.val ≤ 14 ∧ rb.val ≤ 14 := by
  simp [Instr.wellFormed, Instr.operands]

theorem wellFormed_ptsub :
    (Instr.ptsub rd ra rb).wellFormed = true ↔ rd.val ≤ 14 ∧ ra.val ≤ 14 ∧ rb.val ≤ 14 := by
  simp [Instr.wellFormed, Instr.operands]

theorem wellFormed_ptscale : (Instr.ptscale rd ra rb).wellFormed = true ↔ rd.val ≤ 14 ∧ ra.val ≤ 14 := by
  simp [Instr.wellFormed, Instr.operands]

theorem wellFormed_ptcross : (Instr.ptcross rd ra rb).wellFormed = true ↔ ra.val ≤ 14 ∧ rb.val ≤ 14 := by
  simp [Instr.wellFormed, Instr.operands]

theorem wellFormed_ptdot : (Instr.ptdot rd ra rb).wellFormed = true ↔ ra.val ≤ 14 ∧ rb.val ≤ 14 := by
  simp [Instr.wellFormed, Instr.operands]

theorem wellFormed_ptinrect : (Instr.ptinrect rd ra rb).wellFormed = true ↔ ra.val ≤ 14 ∧ rb.val ≤ 12 := by
  simp [Instr.wellFormed, Instr.operands]

variable (s : State)

theorem exec_ptadd (h : (Instr.ptadd rd ra rb).wellFormed = true) : exec (.ptadd rd ra rb) s =
    .next (s.writeGroup rd [wrap32 (s.sx ra + s.sx rb), wrap32 (s.sx (ra + 1) + s.sx (rb + 1))]) :=
  s.ifLegal_of_wellFormed h _

theorem exec_ptsub (h : (Instr.ptsub rd ra rb).wellFormed = true) : exec (.ptsub rd ra rb) s =
    .next (s.writeGroup rd [wrap32 (s.sx ra - s.sx rb), wrap32 (s.sx (ra + 1) - s.sx (rb + 1))]) :=
  s.ifLegal_of_wellFormed h _

theorem exec_ptscale (h : (Instr.ptscale rd ra rb).wellFormed = true) : exec (.ptscale rd ra rb) s =
    .next (s.writeGroup rd [wrap32 (s.sx ra * s.sx rb), wrap32 (s.sx (ra + 1) * s.sx rb)]) :=
  s.ifLegal_of_wellFormed h _

theorem exec_ptcross (h : (Instr.ptcross rd ra rb).wellFormed = true) : exec (.ptcross rd ra rb) s =
    .next (s.write rd (wrap32 (s.sx ra * s.sx (rb + 1) - s.sx (ra + 1) * s.sx rb))) :=
  s.ifLegal_of_wellFormed h _

theorem exec_ptdot (h : (Instr.ptdot rd ra rb).wellFormed = true) : exec (.ptdot rd ra rb) s =
    .next (s.write rd (wrap32 (s.sx ra * s.sx rb + s.sx (ra + 1) * s.sx (rb + 1)))) :=
  s.ifLegal_of_wellFormed h _

theorem exec_ptinrect (h : (Instr.ptinrect rd ra rb).wellFormed = true) : exec (.ptinrect rd ra rb) s =
    .next (s.write rd (boolWord ((s.rect rb).contains (s.point ra)))) :=
  s.ifLegal_of_wellFormed h _

end Exec

/-! ## Sums and products as 32-bit operations -/

theorem wrap32_s32_mul_s32 (p q : Word) : wrap32 (s32 p * s32 q) = p * q := by
  rw [wrap32_mul, wrap32_s32, wrap32_s32]

/-- The pattern of all ones is -1, the scalar that negates (R164). -/
theorem mul_allOnes (p : Word) : p * 0xFFFFFFFF = -p := by
  rw [show (0xFFFFFFFF : Word) = -1 from rfl, mul_neg_one]

/-! ## PTADD and PTSUB (R162, R163) -/

/-- Settles O47: the sums and differences are read before the write; a component minus itself is 0. -/
theorem pointAddAndSubAreComponentwise : Obligations.PointAddAndSubAreComponentwise := by
  intro rd ra rb s
  refine ⟨illegalUnless_of_wellFormed wellFormed_ptadd.1, illegalUnless_of_wellFormed wellFormed_ptsub.1,
    fun hd ha hb => ⟨?sum, ?difference⟩⟩
  case sum =>
    exact completes_of_writeGroup_two (exec_ptadd s (wellFormed_ptadd.2 ⟨hd, ha, hb⟩)) fun _ hx hy => ⟨hx, hy⟩
  case difference =>
    refine completes_of_writeGroup_two (exec_ptsub s (wellFormed_ptsub.2 ⟨hd, ha, hb⟩)) fun t hx hy =>
      ⟨hx, hy, fun hSame => ?_⟩
    rw [hx, hy, hSame, sub_self, sub_self]
    exact ⟨rfl, rfl⟩

/-! ## PTSCALE (R164) -/

/-- Settles O48: each component is the 32-bit product, from which the scalars 0 and -1 are read off. -/
theorem pointScaleMultipliesBothComponents : Obligations.PointScaleMultipliesBothComponents := by
  intro rd ra rb s
  refine ⟨illegalUnless_of_wellFormed wellFormed_ptscale.1, fun hd ha => ?_⟩
  refine completes_of_writeGroup_two (exec_ptscale s (wellFormed_ptscale.2 ⟨hd, ha⟩)) fun t hx hy => ?_
  have hx' : t.reg rd = s.reg ra * s.reg rb := hx.trans (wrap32_s32_mul_s32 _ _)
  have hy' : t.reg (rd + 1) = s.reg (ra + 1) * s.reg rb := hy.trans (wrap32_s32_mul_s32 _ _)
  refine ⟨hx, hy, hx', hy', fun hZero => ?zero, fun hNeg => ?negated⟩
  case zero => rw [hx', hy', hZero, mul_zero, mul_zero]; exact ⟨rfl, rfl⟩
  case negated => rw [hx', hy', hNeg, mul_allOnes, mul_allOnes]; exact ⟨rfl, rfl⟩

/-! ## PTCROSS and PTDOT (R165, R166) -/

/-- Settles O49: `wrap32` passes through the difference and the sum to each product. -/
theorem pointCrossAndDot : Obligations.PointCrossAndDot := by
  intro rd ra rb s xa ya xb yb
  refine ⟨illegalUnless_of_wellFormed wellFormed_ptcross.1, illegalUnless_of_wellFormed wellFormed_ptdot.1,
    fun ha hb => ⟨completes_of_write (exec_ptcross s (wellFormed_ptcross.2 ⟨ha, hb⟩)) ?cross,
      completes_of_write (exec_ptdot s (wellFormed_ptdot.2 ⟨ha, hb⟩)) ?dot⟩⟩ <;>
    rw [State.reg_write_self]
  case cross =>
    refine ⟨rfl, ?_⟩
    rw [wrap32_sub]
    exact congrArg₂ (· - ·) (wrap32_s32_mul_s32 _ _) (wrap32_s32_mul_s32 _ _)
  case dot =>
    refine ⟨rfl, ?_⟩
    rw [wrap32_add]
    exact congrArg₂ (· + ·) (wrap32_s32_mul_s32 _ _) (wrap32_s32_mul_s32 _ _)

/-! ## PTINRECT (R167) -/

theorem Rect.contains_iff (r : Rect) (p : Point) :
    r.contains p = true ↔ r.left ≤ p.x ∧ p.x < r.right ∧ r.top ≤ p.y ∧ p.y < r.bottom := by
  simp [Rect.contains, and_assoc]

theorem boolWord_of_true {b : Bool} (h : b = true) : boolWord b = 1 := if_pos h

theorem boolWord_of_not {b : Bool} (h : ¬b = true) : boolWord b = 0 := if_neg h

/-- A rect with an empty or inverted axis has no point (R167). -/
theorem Rect.not_contains_of_empty {r : Rect} (h : r.right ≤ r.left ∨ r.bottom ≤ r.top) (p : Point) :
    ¬r.contains p = true := by
  rw [Rect.contains_iff]
  omega

/-- Settles O50: the bit written is membership, which the four signed compares decide. -/
theorem pointInRectIsHalfOpen : Obligations.PointInRectIsHalfOpen := by
  intro rd ra rb s inside
  have hInside : (s.rect rb).contains (s.point ra) = true ↔ inside := Rect.contains_iff _ _
  refine ⟨illegalUnless_of_wellFormed wellFormed_ptinrect.1, fun ha hb =>
    completes_of_write (exec_ptinrect s (wellFormed_ptinrect.2 ⟨ha, hb⟩)) ?_⟩
  rw [State.reg_write_self]
  exact ⟨fun h => boolWord_of_true (hInside.2 h), fun h => boolWord_of_not (mt hInside.1 h),
    fun hEmpty => boolWord_of_not (Rect.not_contains_of_empty hEmpty _)⟩

end Sys2Proof.Machine
end

section
/-! The Rect family (44_rect.md R182 to R191). Each command writes four edges that are `wrap32` of exact integers, so a
width or a height is `wrap32` of the exact difference of the two integers, also where an edge wraps. RCNORM is described
axis by axis: its second run, its order and its size laws follow from what it does to one pair of edges. -/

namespace Sys2Proof.Machine

/-! ## What each command does -/

section Exec

variable {rd ra rb rc re : Reg}

theorem wellFormed_rcseto : (Instr.rcseto rd ra rb rc re).wellFormed = true ↔ rd.val ≤ 12 := by
  simp [Instr.wellFormed, Instr.operands]

theorem wellFormed_rcwidth : (Instr.rcwidth rd ra).wellFormed = true ↔ ra.val ≤ 12 := by
  simp [Instr.wellFormed, Instr.operands]

theorem wellFormed_rcheight : (Instr.rcheight rd ra).wellFormed = true ↔ ra.val ≤ 12 := by
  simp [Instr.wellFormed, Instr.operands]

theorem wellFormed_rcsetpos :
    (Instr.rcsetpos rd ra rb).wellFormed = true ↔ rd.val ≤ 12 ∧ ra.val ≤ 12 ∧ rb.val ≤ 14 := by
  simp [Instr.wellFormed, Instr.operands]

theorem wellFormed_rcsetsize :
    (Instr.rcsetsize rd ra rb).wellFormed = true ↔ rd.val ≤ 12 ∧ ra.val ≤ 12 ∧ rb.val ≤ 14 := by
  simp [Instr.wellFormed, Instr.operands]

theorem wellFormed_rcmove :
    (Instr.rcmove rd ra rb).wellFormed = true ↔ rd.val ≤ 12 ∧ ra.val ≤ 12 ∧ rb.val ≤ 14 := by
  simp [Instr.wellFormed, Instr.operands]

theorem wellFormed_rcinfl :
    (Instr.rcinfl rd ra rb).wellFormed = true ↔ rd.val ≤ 12 ∧ ra.val ≤ 12 ∧ rb.val ≤ 14 := by
  simp [Instr.wellFormed, Instr.operands]

theorem wellFormed_rcinflr :
    (Instr.rcinflr rd ra rb).wellFormed = true ↔ rd.val ≤ 12 ∧ ra.val ≤ 12 ∧ rb.val ≤ 12 := by
  simp [Instr.wellFormed, Instr.operands]

theorem wellFormed_rcnorm : (Instr.rcnorm rd ra).wellFormed = true ↔ rd.val ≤ 12 ∧ ra.val ≤ 12 := by
  simp [Instr.wellFormed, Instr.operands]

variable (s : State)

theorem exec_rcseto (h : (Instr.rcseto rd ra rb rc re).wellFormed = true) : exec (.rcseto rd ra rb rc re) s =
    .next (s.writeGroup rd [wrap32 (s.sx ra), wrap32 (s.sx rb), wrap32 (s.sx ra + s.sx rc),
      wrap32 (s.sx rb + s.sx re)]) :=
  s.ifLegal_of_wellFormed h _

theorem exec_rcwidth (h : (Instr.rcwidth rd ra).wellFormed = true) : exec (.rcwidth rd ra) s =
    .next (s.write rd (wrap32 (s.sx (ra + 2) - s.sx ra))) :=
  s.ifLegal_of_wellFormed h _

theorem exec_rcheight (h : (Instr.rcheight rd ra).wellFormed = true) : exec (.rcheight rd ra) s =
    .next (s.write rd (wrap32 (s.sx (ra + 3) - s.sx (ra + 1)))) :=
  s.ifLegal_of_wellFormed h _

theorem exec_rcsetpos (h : (Instr.rcsetpos rd ra rb).wellFormed = true) : exec (.rcsetpos rd ra rb) s =
    .next (s.writeGroup rd [wrap32 (s.sx rb), wrap32 (s.sx (rb + 1)),
      wrap32 (s.sx (ra + 2) + (s.sx rb - s.sx ra)), wrap32 (s.sx (ra + 3) + (s.sx (rb + 1) - s.sx (ra + 1)))]) :=
  s.ifLegal_of_wellFormed h _

theorem exec_rcsetsize (h : (Instr.rcsetsize rd ra rb).wellFormed = true) : exec (.rcsetsize rd ra rb) s =
    .next (s.writeGroup rd [wrap32 (s.sx ra), wrap32 (s.sx (ra + 1)), wrap32 (s.sx ra + s.sx rb),
      wrap32 (s.sx (ra + 1) + s.sx (rb + 1))]) :=
  s.ifLegal_of_wellFormed h _

theorem exec_rcmove (h : (Instr.rcmove rd ra rb).wellFormed = true) : exec (.rcmove rd ra rb) s =
    .next (s.writeGroup rd [wrap32 (s.sx ra + s.sx rb), wrap32 (s.sx (ra + 1) + s.sx (rb + 1)),
      wrap32 (s.sx (ra + 2) + s.sx rb), wrap32 (s.sx (ra + 3) + s.sx (rb + 1))]) :=
  s.ifLegal_of_wellFormed h _

theorem exec_rcinfl (h : (Instr.rcinfl rd ra rb).wellFormed = true) : exec (.rcinfl rd ra rb) s =
    .next (s.writeGroup rd [wrap32 (s.sx ra - s.sx rb), wrap32 (s.sx (ra + 1) - s.sx (rb + 1)),
      wrap32 (s.sx (ra + 2) + s.sx rb), wrap32 (s.sx (ra + 3) + s.sx (rb + 1))]) :=
  s.ifLegal_of_wellFormed h _

theorem exec_rcinflr (h : (Instr.rcinflr rd ra rb).wellFormed = true) : exec (.rcinflr rd ra rb) s =
    .next (s.writeGroup rd [wrap32 (s.sx ra + s.sx rb), wrap32 (s.sx (ra + 1) + s.sx (rb + 1)),
      wrap32 (s.sx (ra + 2) + s.sx (rb + 2)), wrap32 (s.sx (ra + 3) + s.sx (rb + 3))]) :=
  s.ifLegal_of_wellFormed h _

theorem exec_rcnorm (h : (Instr.rcnorm rd ra).wellFormed = true) : exec (.rcnorm rd ra) s =
    .next (s.writeGroup rd [wrap32 (orderEdges (s.sx ra) (s.sx (ra + 2))).1,
      wrap32 (orderEdges (s.sx (ra + 1)) (s.sx (ra + 3))).1, wrap32 (orderEdges (s.sx ra) (s.sx (ra + 2))).2,
      wrap32 (orderEdges (s.sx (ra + 1)) (s.sx (ra + 3))).2]) :=
  s.ifLegal_of_wellFormed h _

end Exec

/-- A command has one next state, so what it completes with holds of every one. -/
theorem of_completes {i : Instr} {s t : State} {written : List Reg} {P : State → Prop}
    (h : Completes i s written P) (ht : exec i s = .next t) : P t := by
  obtain ⟨t', ht', -, hP⟩ := h
  cases ht'.symm.trans ht
  exact hP

/-! ## The size between two written edges -/

section Size

variable (s : State) (q r : Reg)

theorem State.wrap32_sx : wrap32 (s.sx r) = s.reg r := wrap32_s32 _

theorem State.wrap32_sx_sub_sx : wrap32 (s.sx q - s.sx r) = s.reg q - s.reg r := by
  rw [wrap32_sub, s.wrap32_sx, s.wrap32_sx]

/-- The size pattern is `wrap32` of the exact difference of the edges, whether or not an edge wraps (R185, R188). -/
theorem size_eq_wrap32 {lo hi : Word} {u v d : Int} (hLo : lo = wrap32 u) (hHi : hi = wrap32 v) (h : v - u = d) :
    hi - lo = wrap32 d := by
  rw [hLo, hHi, ← wrap32_sub, h]

/-- A difference of signed readings that fits 32 bits is the signed reading of the difference. -/
theorem s32_sub_of_fits {p q : Word} (h₁ : -2 ^ 31 ≤ s32 q - s32 p) (h₂ : s32 q - s32 p < 2 ^ 31) :
    s32 (q - p) = s32 q - s32 p := by
  have hExact := s32_wrap32 h₁ h₂
  rwa [wrap32_sub, wrap32_s32, wrap32_s32] at hExact

end Size

/-! ## RCSETPOS (R185) -/

/-- Settles O52: right and bottom move by as much as left and top do, so the exact differences are the old ones. -/
theorem rectSetPositionKeepsTheSize : Obligations.RectSetPositionKeepsTheSize := by
  intro rd ra rb s
  refine ⟨illegalUnless_of_wellFormed wellFormed_rcsetpos.1, fun hd ha hb =>
    completes_of_writeGroup_four (exec_rcsetpos s (wellFormed_rcsetpos.2 ⟨hd, ha, hb⟩)) fun t hL hT hR hB =>
      ⟨hL.trans (s.wrap32_sx rb), hT.trans (s.wrap32_sx (rb + 1)), hR, hB, ?width, ?height⟩⟩
  case width => exact (size_eq_wrap32 hL hR (by ring)).trans (s.wrap32_sx_sub_sx (ra + 2) ra)
  case height => exact (size_eq_wrap32 hT hB (by ring)).trans (s.wrap32_sx_sub_sx (ra + 3) (ra + 1))

/-! ## RCSETO and RCSETSIZE (R182, R186) -/

/-- Settles O53: both commands write a corner and the corner plus the size. -/
theorem rectFromCornerAndSize : Obligations.RectFromCornerAndSize := by
  refine ⟨fun rd ra rb rc re s => ⟨illegalUnless_of_wellFormed wellFormed_rcseto.1, fun hd => ?origin⟩,
    fun rd ra rb s => ⟨illegalUnless_of_wellFormed wellFormed_rcsetsize.1, fun hd ha hb => ?resize⟩⟩
  case origin =>
    refine completes_of_writeGroup_four (exec_rcseto s (wellFormed_rcseto.2 hd)) fun t hL hT hR hB =>
      ⟨hL.trans (s.wrap32_sx ra), hT.trans (s.wrap32_sx rb), hR, hB, ?width, ?height⟩
    case width => exact (size_eq_wrap32 hL hR (add_sub_cancel_left _ _)).trans (s.wrap32_sx rc)
    case height => exact (size_eq_wrap32 hT hB (add_sub_cancel_left _ _)).trans (s.wrap32_sx re)
  case resize =>
    refine completes_of_writeGroup_four (exec_rcsetsize s (wellFormed_rcsetsize.2 ⟨hd, ha, hb⟩)) fun t hL hT hR hB =>
      ⟨hL.trans (s.wrap32_sx ra), hT.trans (s.wrap32_sx (ra + 1)), hR, hB, ?width, ?height⟩
    case width => exact (size_eq_wrap32 hL hR (add_sub_cancel_left _ _)).trans (s.wrap32_sx rb)
    case height => exact (size_eq_wrap32 hT hB (add_sub_cancel_left _ _)).trans (s.wrap32_sx (rb + 1))

/-! ## RCMOVE, RCINFL and RCINFLR (R187 to R189) -/

/-- Settles O54: one delta on both edges of an axis cancels in the size, a delta outward on each counts twice. -/
theorem rectMoveAndInflate : Obligations.RectMoveAndInflate := by
  intro rd ra rb s l t0 r b v0 v1 v2 v3
  refine ⟨illegalUnless_of_wellFormed wellFormed_rcmove.1, illegalUnless_of_wellFormed wellFormed_rcinfl.1,
    illegalUnless_of_wellFormed wellFormed_rcinflr.1, fun hd ha =>
      ⟨fun hb => ?move, fun hb => ?inflate, fun hb => ?inflateByRect⟩⟩
  case move =>
    refine completes_of_writeGroup_four (exec_rcmove s (wellFormed_rcmove.2 ⟨hd, ha, hb⟩)) fun t hL hT hR hB =>
      ⟨hL, hT, hR, hB, ?width, ?height⟩
    case width =>
      exact (size_eq_wrap32 hL hR (add_sub_add_right_eq_sub _ _ _)).trans (s.wrap32_sx_sub_sx (ra + 2) ra)
    case height =>
      exact (size_eq_wrap32 hT hB (add_sub_add_right_eq_sub _ _ _)).trans (s.wrap32_sx_sub_sx (ra + 3) (ra + 1))
  case inflate =>
    have outward (x y v : Int) : y + v - (x - v) = y - x + 2 * v := by ring
    exact completes_of_writeGroup_four (exec_rcinfl s (wellFormed_rcinfl.2 ⟨hd, ha, hb⟩)) fun t hL hT hR hB =>
      ⟨hL, hT, hR, hB, size_eq_wrap32 hL hR (outward _ _ _), size_eq_wrap32 hT hB (outward _ _ _)⟩
  case inflateByRect =>
    exact completes_of_writeGroup_four (exec_rcinflr s (wellFormed_rcinflr.2 ⟨hd, ha, hb⟩)) fun t hL hT hR hB =>
      ⟨hL, hT, hR, hB⟩

/-! ## RCNORM (R190, R191) -/

/-- `lo'` and `hi'` are the edges `lo` and `hi` of one axis in the order that RCNORM gives them (R190). -/
structure EdgesOrdered (lo hi lo' hi' : Word) : Prop where
  swapped : s32 hi < s32 lo → lo' = hi ∧ hi' = lo
  kept : s32 lo ≤ s32 hi → lo' = lo ∧ hi' = hi

theorem edgesOrdered_orderEdges (lo hi : Word) :
    EdgesOrdered lo hi (wrap32 (orderEdges (s32 lo) (s32 hi)).1) (wrap32 (orderEdges (s32 lo) (s32 hi)).2) where
  swapped h := by
    rw [orderEdges, if_pos h]
    exact ⟨wrap32_s32 hi, wrap32_s32 lo⟩
  kept h := by
    rw [orderEdges, if_neg (not_lt.2 h)]
    exact ⟨wrap32_s32 lo, wrap32_s32 hi⟩

section EdgesOrdered

variable {lo hi lo' hi' : Word}

/-- Both outcomes at once: the edges are exchanged or copied, whatever the compare says. -/
theorem EdgesOrdered.cases (h : EdgesOrdered lo hi lo' hi') :
    s32 hi < s32 lo ∧ lo' = hi ∧ hi' = lo ∨ s32 lo ≤ s32 hi ∧ lo' = lo ∧ hi' = hi :=
  (lt_or_ge (s32 hi) (s32 lo)).imp (fun hlt => ⟨hlt, h.swapped hlt⟩) fun hle => ⟨hle, h.kept hle⟩

theorem EdgesOrdered.le (h : EdgesOrdered lo hi lo' hi') : s32 lo' ≤ s32 hi' := by
  obtain ⟨hlt, rfl, rfl⟩ | ⟨hle, rfl, rfl⟩ := h.cases
  · exact hlt.le
  · exact hle

theorem EdgesOrdered.size (h : EdgesOrdered lo hi lo' hi') : hi' - lo' = hi - lo ∨ hi' - lo' = -(hi - lo) := by
  obtain ⟨-, rfl, rfl⟩ | ⟨-, rfl, rfl⟩ := h.cases
  · exact .inr (neg_sub _ _).symm
  · exact .inl rfl

/-- Strictly inside 32 bits the difference and its negative are both exact (R191). -/
theorem EdgesOrdered.abs_size (h : EdgesOrdered lo hi lo' hi') (hFits : |s32 hi - s32 lo| < 2 ^ 31) :
    |s32 (hi' - lo')| = |s32 (hi - lo)| := by
  obtain ⟨hLow, hHigh⟩ := abs_lt.1 hFits
  obtain ⟨-, rfl, rfl⟩ | ⟨-, rfl, rfl⟩ := h.cases
  · rw [s32_sub_of_fits (by omega) (by omega), s32_sub_of_fits (by omega) (by omega)]
    exact abs_sub_comm _ _
  · rfl

end EdgesOrdered

theorem rcnorm_completes {rd ra : Reg} (hd : rd.val ≤ 12) (ha : ra.val ≤ 12) (s : State) :
    Completes (.rcnorm rd ra) s [rd, rd + 1, rd + 2, rd + 3] fun t =>
      EdgesOrdered (s.reg ra) (s.reg (ra + 2)) (t.reg rd) (t.reg (rd + 2)) ∧
      EdgesOrdered (s.reg (ra + 1)) (s.reg (ra + 3)) (t.reg (rd + 1)) (t.reg (rd + 3)) := by
  refine completes_of_writeGroup_four (exec_rcnorm s (wellFormed_rcnorm.2 ⟨hd, ha⟩)) fun t hL hT hR hB => ?_
  rw [hL, hT, hR, hB]
  exact ⟨edgesOrdered_orderEdges _ _, edgesOrdered_orderEdges _ _⟩

/-- Settles O55: each axis is one ordered pair of edges. -/
theorem rectNormalizeOrdersEachAxis : Obligations.RectNormalizeOrdersEachAxis := by
  intro rd ra s
  refine ⟨illegalUnless_of_wellFormed wellFormed_rcnorm.1, fun hd ha => ?_⟩
  obtain ⟨t, ht, hFrame, hHorizontal, hVertical⟩ := rcnorm_completes hd ha s
  exact ⟨t, ht, hFrame, hHorizontal.swapped, hHorizontal.kept, hVertical.swapped, hVertical.kept⟩

/-- Settles O56: after the first RCNORM each axis is in order, so the second one copies it. -/
theorem rectNormalizeIsIdempotent : Obligations.RectNormalizeIsIdempotent := by
  intro rd rq ra s t u hd hq ha ht hu
  obtain ⟨hHorizontal, hVertical⟩ := of_completes (rcnorm_completes hd ha s) ht
  obtain ⟨hAgainHorizontal, hAgainVertical⟩ := of_completes (rcnorm_completes hq hd t) hu
  obtain ⟨hLeft, hRight⟩ := hAgainHorizontal.kept hHorizontal.le
  obtain ⟨hTop, hBottom⟩ := hAgainVertical.kept hVertical.le
  exact ⟨⟨hLeft, hTop, hRight, hBottom⟩, hHorizontal.le, hVertical.le, hHorizontal.size, hVertical.size,
    hHorizontal.abs_size, hVertical.abs_size⟩

/-! ## RCWIDTH and RCHEIGHT (R183, R184) -/

/-- Settles O51: the difference written is read back whole where it fits. -/
theorem rectWidthAndHeight : Obligations.RectWidthAndHeight := by
  intro rd ra s
  refine ⟨illegalUnless_of_wellFormed wellFormed_rcwidth.1, illegalUnless_of_wellFormed wellFormed_rcheight.1,
    fun ha => ⟨completes_of_write (exec_rcwidth s (wellFormed_rcwidth.2 ha)) ?_,
      completes_of_write (exec_rcheight s (wellFormed_rcheight.2 ha)) ?_⟩⟩ <;>
    rw [State.reg_write_self] <;>
    exact ⟨rfl, s32_wrap32⟩

end Sys2Proof.Machine
end

section
/-! The Vector family (45_vector.md R202 to R207). Every product is the narrow one of MUL. R209 bounds it to
-2^23 .. 2^23 - 1, so a sum of three or a difference of two never wraps. -/

namespace Sys2Proof.Machine

/-! ## What each command does -/

section Exec

variable {rd ra rb : Reg}

theorem wellFormed_vadd :
    (Instr.vadd rd ra rb).wellFormed = true ↔ rd.val ≤ 13 ∧ ra.val ≤ 13 ∧ rb.val ≤ 13 := by
  simp [Instr.wellFormed, Instr.operands]

theorem wellFormed_vsub :
    (Instr.vsub rd ra rb).wellFormed = true ↔ rd.val ≤ 13 ∧ ra.val ≤ 13 ∧ rb.val ≤ 13 := by
  simp [Instr.wellFormed, Instr.operands]

theorem wellFormed_vmul :
    (Instr.vmul rd ra rb).wellFormed = true ↔ rd.val ≤ 13 ∧ ra.val ≤ 13 ∧ rb.val ≤ 13 := by
  simp [Instr.wellFormed, Instr.operands]

theorem wellFormed_vscale : (Instr.vscale rd ra rb).wellFormed = true ↔ rd.val ≤ 13 ∧ ra.val ≤ 13 := by
  simp [Instr.wellFormed, Instr.operands]

theorem wellFormed_vdot : (Instr.vdot rd ra rb).wellFormed = true ↔ ra.val ≤ 13 ∧ rb.val ≤ 13 := by
  simp [Instr.wellFormed, Instr.operands]

theorem wellFormed_vcross :
    (Instr.vcross rd ra rb).wellFormed = true ↔ rd.val ≤ 13 ∧ ra.val ≤ 13 ∧ rb.val ≤ 13 := by
  simp [Instr.wellFormed, Instr.operands]

variable (s : State)

theorem exec_vadd (h : (Instr.vadd rd ra rb).wellFormed = true) : exec (.vadd rd ra rb) s =
    .next (s.writeGroup rd [wrap32 (s.sx ra + s.sx rb), wrap32 (s.sx (ra + 1) + s.sx (rb + 1)),
      wrap32 (s.sx (ra + 2) + s.sx (rb + 2))]) :=
  s.ifLegal_of_wellFormed h _

theorem exec_vsub (h : (Instr.vsub rd ra rb).wellFormed = true) : exec (.vsub rd ra rb) s =
    .next (s.writeGroup rd [wrap32 (s.sx ra - s.sx rb), wrap32 (s.sx (ra + 1) - s.sx (rb + 1)),
      wrap32 (s.sx (ra + 2) - s.sx (rb + 2))]) :=
  s.ifLegal_of_wellFormed h _

theorem exec_vmul (h : (Instr.vmul rd ra rb).wellFormed = true) : exec (.vmul rd ra rb) s =
    .next (s.writeGroup rd [wrap32 (fxmul (s.sx ra) (s.sx rb)), wrap32 (fxmul (s.sx (ra + 1)) (s.sx (rb + 1))),
      wrap32 (fxmul (s.sx (ra + 2)) (s.sx (rb + 2)))]) :=
  s.ifLegal_of_wellFormed h _

theorem exec_vscale (h : (Instr.vscale rd ra rb).wellFormed = true) : exec (.vscale rd ra rb) s =
    .next (s.writeGroup rd [wrap32 (fxmul (s.sx ra) (s.sx rb)), wrap32 (fxmul (s.sx (ra + 1)) (s.sx rb)),
      wrap32 (fxmul (s.sx (ra + 2)) (s.sx rb))]) :=
  s.ifLegal_of_wellFormed h _

theorem exec_vdot (h : (Instr.vdot rd ra rb).wellFormed = true) : exec (.vdot rd ra rb) s =
    .next (s.write rd (wrap32 (fxmul (s.sx ra) (s.sx rb) + fxmul (s.sx (ra + 1)) (s.sx (rb + 1)) +
      fxmul (s.sx (ra + 2)) (s.sx (rb + 2))))) :=
  s.ifLegal_of_wellFormed h _

theorem exec_vcross (h : (Instr.vcross rd ra rb).wellFormed = true) : exec (.vcross rd ra rb) s =
    .next (s.writeGroup rd [
      wrap32 (fxmul (s.sx (ra + 1)) (s.sx (rb + 2)) - fxmul (s.sx (ra + 2)) (s.sx (rb + 1))),
      wrap32 (fxmul (s.sx (ra + 2)) (s.sx rb) - fxmul (s.sx ra) (s.sx (rb + 2))),
      wrap32 (fxmul (s.sx ra) (s.sx (rb + 1)) - fxmul (s.sx (ra + 1)) (s.sx rb))]) :=
  s.ifLegal_of_wellFormed h _

end Exec

/-! ## The narrow product (R200, R209) -/

section NarrowProduct

theorem fxmul_comm (a b : Int) : fxmul a b = fxmul b a := by
  rw [fxmul, fxmul, mul_comm]

/-- R209: 32 bits shifted right by 8 leave a signed 24-bit number. -/
theorem fxmul_mem_Icc (a b : Int) : fxmul a b ∈ Set.Icc (-2 ^ 23) (2 ^ 23 - 1) := by
  have hLower := s32_lower (wrap32 (a * b))
  have hUpper := s32_upper (wrap32 (a * b))
  rw [fxmul_eq, Set.mem_Icc]
  omega

/-- The 32-bit datapath of R117, read as the integer that the commands add and subtract. -/
theorem s32_datapath_eq_fxmul (p q : Word) : s32 ((p * q).sshiftRight 8) = fxmul (s32 p) (s32 q) := by
  rw [← wrap32_fxmul_eq_datapath, s32_wrap32_fxmul]

/-- R205: 1.0 is the pattern 0x100; a component from -2^23 to 2^23 - 1 survives the scaling up by 256. -/
theorem eq_of_datapath_one {v p q : Word} (hv : v = (p * q).sshiftRight 8) (hOne : q = 0x100)
    (h₁ : -2 ^ 23 ≤ s32 p) (h₂ : s32 p < 2 ^ 23) : v = p := by
  have hFloor : fxmul (s32 p) 256 = s32 p * 256 / 2 ^ 8 := fxmul_eq_floor (by omega) (by omega)
  rw [hv, hOne, ← s32_inj, s32_datapath_eq_fxmul, show s32 0x100 = 256 from rfl, hFloor]
  exact Int.mul_ediv_cancel _ (by norm_num)

variable (a b c d e f : Int)

theorem s32_wrap32_fxmul_add_add :
    s32 (wrap32 (fxmul a b + fxmul c d + fxmul e f)) = fxmul a b + fxmul c d + fxmul e f := by
  obtain ⟨hx₁, hx₂⟩ := fxmul_mem_Icc a b
  obtain ⟨hy₁, hy₂⟩ := fxmul_mem_Icc c d
  obtain ⟨hz₁, hz₂⟩ := fxmul_mem_Icc e f
  exact s32_wrap32 (by omega) (by omega)

theorem s32_wrap32_fxmul_sub : s32 (wrap32 (fxmul a b - fxmul c d)) = fxmul a b - fxmul c d := by
  obtain ⟨hx₁, hx₂⟩ := fxmul_mem_Icc a b
  obtain ⟨hy₁, hy₂⟩ := fxmul_mem_Icc c d
  exact s32_wrap32 (by omega) (by omega)

/-- A component of a vector crossed with itself (R207). -/
theorem wrap32_fxmul_sub_fxmul_swap : wrap32 (fxmul a b - fxmul b a) = 0 := by
  rw [fxmul_comm b a, sub_self]
  rfl

end NarrowProduct

/-- What holds of the three components of a vector holds of every register offset up to 2. -/
theorem forall_component {P : Reg → Prop} (hx : P 0) (hy : P 1) (hz : P 2) : ∀ k : Reg, k.val ≤ 2 → P k
  | 0, _ => hx
  | 1, _ => hy
  | 2, _ => hz
  | ⟨_ + 3, _⟩, hk => absurd hk (by simp)

/-! ## VADD and VSUB (R202, R203) -/

/-- Settles O57: both commands write sums or differences of components that were all read before the write. -/
theorem vectorAddAndSubAreComponentwise : Obligations.VectorAddAndSubAreComponentwise := by
  intro rd ra rb s
  refine ⟨illegalUnless_of_wellFormed wellFormed_vadd.1, illegalUnless_of_wellFormed wellFormed_vsub.1,
    fun hd ha hb => ⟨?sum, ?difference⟩⟩
  case sum =>
    exact completes_of_writeGroup_three (exec_vadd s (wellFormed_vadd.2 ⟨hd, ha, hb⟩)) fun _ hx hy hz => ⟨hx, hy, hz⟩
  case difference =>
    exact completes_of_writeGroup_three (exec_vsub s (wellFormed_vsub.2 ⟨hd, ha, hb⟩)) fun _ hx hy hz => ⟨hx, hy, hz⟩

/-! ## VMUL and VSCALE (R204, R205) -/

/-- Settles O58: each component is the datapath of MUL, which for the scalar 1.0 shifts back what it scaled up. -/
theorem vectorProductsAreNarrow : Obligations.VectorProductsAreNarrow := by
  intro rd ra rb s
  refine ⟨illegalUnless_of_wellFormed wellFormed_vmul.1, illegalUnless_of_wellFormed wellFormed_vscale.1,
    fun hd ha => ⟨fun hb => ?product, ?scale⟩⟩
  case product =>
    exact completes_of_writeGroup_three (exec_vmul s (wellFormed_vmul.2 ⟨hd, ha, hb⟩)) fun _ hx hy hz =>
      ⟨hx.trans (wrap32_fxmul_eq_datapath _ _), hy.trans (wrap32_fxmul_eq_datapath _ _),
        hz.trans (wrap32_fxmul_eq_datapath _ _)⟩
  case scale =>
    refine completes_of_writeGroup_three (exec_vscale s (wellFormed_vscale.2 ⟨hd, ha⟩)) fun t hx hy hz => ?_
    replace hx := hx.trans (wrap32_fxmul_eq_datapath _ _)
    replace hy := hy.trans (wrap32_fxmul_eq_datapath _ _)
    replace hz := hz.trans (wrap32_fxmul_eq_datapath _ _)
    refine ⟨hx, hy, hz, fun hOne => forall_component ?_ (eq_of_datapath_one hy hOne) (eq_of_datapath_one hz hOne)⟩
    rw [Fin.add_zero, Fin.add_zero]
    exact eq_of_datapath_one hx hOne

/-! ## VDOT (R206) -/

/-- Settles O59: three numbers of 24 bits have a sum that fits 32. -/
theorem vectorDotNeverWraps : Obligations.VectorDotNeverWraps := by
  intro rd ra rb s p
  have hp (k : Reg) : p k = fxmul (s.sx (ra + k)) (s.sx (rb + k)) := s32_datapath_eq_fxmul _ _
  refine ⟨illegalUnless_of_wellFormed wellFormed_vdot.1, fun k => ?range, fun ha hb =>
    completes_of_write (exec_vdot s (wellFormed_vdot.2 ⟨ha, hb⟩)) ?sum⟩
  case range => rw [hp]; exact fxmul_mem_Icc _ _
  case sum =>
    rw [State.reg_write_self, hp, hp, hp, Fin.add_zero, Fin.add_zero]
    exact s32_wrap32_fxmul_add_add _ _ _ _ _ _

/-! ## VCROSS (R207) -/

/-- Settles O60: two numbers of 24 bits have a difference that fits 32; with one vector the two products agree. -/
theorem vectorCrossIsRightHanded : Obligations.VectorCrossIsRightHanded := by
  intro rd ra rb s p
  have hp (j k : Reg) : p j k = fxmul (s.sx (ra + j)) (s.sx (rb + k)) := s32_datapath_eq_fxmul _ _
  refine ⟨illegalUnless_of_wellFormed wellFormed_vcross.1, fun hd ha hb =>
    completes_of_writeGroup_three (exec_vcross s (wellFormed_vcross.2 ⟨hd, ha, hb⟩)) fun t hx hy hz => ?_⟩
  rw [hx, hy, hz]
  refine ⟨?x, ?y, ?z, ?self⟩
  case self =>
    rintro rfl
    exact ⟨wrap32_fxmul_sub_fxmul_swap _ _, wrap32_fxmul_sub_fxmul_swap _ _, wrap32_fxmul_sub_fxmul_swap _ _⟩
  all_goals
    simp only [hp, Fin.add_zero]
    exact s32_wrap32_fxmul_sub _ _ _ _

end Sys2Proof.Machine
end

section
/-! The exceptions (60_exceptions.md R221 to R224, R228, R231): which words and which commands enter a fault, and what a
pending one discards. The faults of a legal command are those of five commands on the operands named here; on every other
operand, and for every other command, the command is the write of its destination registers. -/

namespace Sys2Proof.Machine

/-! ## Illegal words and discarded words (R221, R228) -/

/-- Every legal word has its row in the opcode map. -/
theorem decode_of_not_admits {w : Word} (h : ∀ row ∈ opcodeMap, row.admits w = false) : ∃ e, decode w = .error e := by
  cases hd : decode w with
  | error e => exact ⟨e, rfl⟩
  | ok i =>
    obtain ⟨row, hRow, hAdmits, -⟩ := exists_row_of_decode hd
    exact absurd hAdmits (Bool.eq_false_iff.1 (h row hRow))

/-- Settles O4: a word without a row is refused by the decoder, so the write to `CMD` is the fault entry. -/
theorem illegalWordEntersIllegalCommand : Obligations.IllegalWordEntersIllegalCommand := by
  intro s w rest h hf hNoRow
  obtain ⟨e, hd⟩ := decode_of_not_admits hNoRow
  rw [step_hostWriteCmd h]
  exact ⟨_, State.writeCmd_of_illegal hf hd, State.raise_entersFault _ _ _⟩

/-- Settles O10: only the write to `CMD` looks at the pending fault. -/
theorem pendingFaultDiscardsCommands : Obligations.PendingFaultDiscardsCommands := by
  intro s rest hf
  refine ⟨fun w h => ?discarded, fun i v h => ?written, fun i h => ?read⟩
  case discarded =>
    rw [step_hostWriteCmd h]
    exact State.writeCmd_of_fault hf
  case written => exact ⟨_, step_hostWriteReg h, State.onlyWrites_write _ i v, State.reg_write_self _ i v⟩
  case read => exact ⟨_, step_hostReadReg h, by simp⟩

/-! ## The operands on which a legal command faults (R222 to R224) -/

/-- A division whose divisor is 0 (R222). -/
def ZeroDivisor (i : Instr) (s : State) : Prop :=
  ∃ rd ra rb, (i = .div rd ra rb ∨ i = .div64 rd ra rb) ∧ s.reg rb = 0

/-- A reciprocal of a number without an entry (R223). -/
def OutOfDomain (i : Instr) (s : State) : Prop :=
  ∃ rd ra, i = .recip rd ra ∧ ((s.reg ra).toNat < 1 ∨ 255 < (s.reg ra).toNat)

/-- An interpolation at an integer index outside its table (R224). -/
def IndexOutside (i : Instr) (s : State) : Prop :=
  ∃ rd ra imm, (i = .lerp16 rd ra imm ∧ 512 < lsr (s.reg ra) imm.val) ∨
    (i = .lerp32 rd ra imm ∧ (lsr (s.reg ra) imm.val < 1 ∨ 255 < lsr (s.reg ra) imm.val))

section Faults

variable {i : Instr} {s : State}

theorem ZeroDivisor.faults (h : ZeroDivisor i s) : FaultsWith i s .divideByZero := by
  obtain ⟨rd, ra, rb, rfl | rfl, hZero⟩ := h
  · exact div_faults rd ra hZero
  · exact div64_faults rd ra hZero

theorem OutOfDomain.faults (h : OutOfDomain i s) : FaultsWith i s .lutDomain := by
  obtain ⟨rd, ra, rfl, hArg⟩ := h
  exact recip_faults rd hArg

theorem IndexOutside.faults (h : IndexOutside i s) : FaultsWith i s .lutIndex := by
  obtain ⟨rd, ra, imm, ⟨rfl, hIndex⟩ | ⟨rfl, hIndex⟩⟩ := h
  · exact lerp16_faults rd hIndex
  · exact lerp32_faults rd hIndex

/-! ## Every other command (R231) -/

/-- On every other operand each command is one write of its destination: of a register, or of the two, three or four
of a group. -/
theorem completes_of_noFaultCase (hWf : i.wellFormed = true) (hDiv : ¬ZeroDivisor i s) (hRecip : ¬OutOfDomain i s)
    (hLerp : ¬IndexOutside i s) : Completes i s i.destRegs fun _ => True := by
  cases i with
  | fromint rd ra => exact completes_of_write (exec_fromint rd ra s) trivial
  | touint rd ra => exact completes_of_write (exec_touint rd ra s) trivial
  | tofrac rd ra => exact completes_of_write (exec_tofrac rd ra s) trivial
  | toint rd ra => exact completes_of_write (exec_toint rd ra s) trivial
  | add rd ra rb => exact completes_of_write (exec_add rd ra rb s) trivial
  | sub rd ra rb => exact completes_of_write (exec_sub rd ra rb s) trivial
  | mul rd ra rb => exact completes_of_write (exec_mul rd ra rb s) trivial
  | mul64 rd ra rb => exact completes_of_write (exec_mul64 rd ra rb s) trivial
  | div rd ra rb =>
    have hDivisor : s.reg rb ≠ 0 := fun h => hDiv ⟨rd, ra, rb, .inl rfl, h⟩
    exact completes_of_write (exec_div rd ra hDivisor) trivial
  | div64 rd ra rb =>
    have hDivisor : s.reg rb ≠ 0 := fun h => hDiv ⟨rd, ra, rb, .inr rfl, h⟩
    exact completes_of_write (exec_div64 rd ra hDivisor) trivial
  | recimul rd ra rb imm => exact completes_of_write (exec_recimul rd ra rb imm s) trivial
  | lerp16 rd ra imm =>
    have hIndex : lsr (s.reg ra) imm.val ≤ 512 := Nat.not_lt.1 fun h => hLerp ⟨rd, ra, imm, .inl ⟨rfl, h⟩⟩
    exact completes_of_write (exec_lerp16 rd hIndex) trivial
  | lerp32 rd ra imm =>
    have hLower : 1 ≤ lsr (s.reg ra) imm.val := Nat.not_lt.1 fun h => hLerp ⟨rd, ra, imm, .inr ⟨rfl, .inl h⟩⟩
    have hUpper : lsr (s.reg ra) imm.val ≤ 255 := Nat.not_lt.1 fun h => hLerp ⟨rd, ra, imm, .inr ⟨rfl, .inr h⟩⟩
    exact completes_of_write (exec_lerp32 rd hLower hUpper) trivial
  | sin rd ra => exact completes_of_write (exec_sin rd ra s) trivial
  | cos rd ra => exact completes_of_write (exec_cos rd ra s) trivial
  | recip rd ra =>
    have hLower : 1 ≤ (s.reg ra).toNat := Nat.not_lt.1 fun h => hRecip ⟨rd, ra, rfl, .inl h⟩
    have hUpper : (s.reg ra).toNat ≤ 255 := Nat.not_lt.1 fun h => hRecip ⟨rd, ra, rfl, .inr h⟩
    exact completes_of_write (exec_recip rd hLower hUpper) trivial
  | ptset rd ra rb => exact completes_of_writeGroup_two (exec_ptset s hWf) fun _ _ _ => trivial
  | ptadd rd ra rb => exact completes_of_writeGroup_two (exec_ptadd s hWf) fun _ _ _ => trivial
  | ptsub rd ra rb => exact completes_of_writeGroup_two (exec_ptsub s hWf) fun _ _ _ => trivial
  | ptscale rd ra rb => exact completes_of_writeGroup_two (exec_ptscale s hWf) fun _ _ _ => trivial
  | ptcross rd ra rb => exact completes_of_write (exec_ptcross s hWf) trivial
  | ptdot rd ra rb => exact completes_of_write (exec_ptdot s hWf) trivial
  | ptinrect rd ra rb => exact completes_of_write (exec_ptinrect s hWf) trivial
  | rcset rd ra rb rc re => exact completes_of_writeGroup_four (exec_rcset s hWf) fun _ _ _ _ _ => trivial
  | rcseto rd ra rb rc re => exact completes_of_writeGroup_four (exec_rcseto s hWf) fun _ _ _ _ _ => trivial
  | rcwidth rd ra => exact completes_of_write (exec_rcwidth s hWf) trivial
  | rcheight rd ra => exact completes_of_write (exec_rcheight s hWf) trivial
  | rcsetpos rd ra rb => exact completes_of_writeGroup_four (exec_rcsetpos s hWf) fun _ _ _ _ _ => trivial
  | rcsetsize rd ra rb => exact completes_of_writeGroup_four (exec_rcsetsize s hWf) fun _ _ _ _ _ => trivial
  | rcmove rd ra rb => exact completes_of_writeGroup_four (exec_rcmove s hWf) fun _ _ _ _ _ => trivial
  | rcinfl rd ra rb => exact completes_of_writeGroup_four (exec_rcinfl s hWf) fun _ _ _ _ _ => trivial
  | rcinflr rd ra rb => exact completes_of_writeGroup_four (exec_rcinflr s hWf) fun _ _ _ _ _ => trivial
  | rcnorm rd ra => exact completes_of_writeGroup_four (exec_rcnorm s hWf) fun _ _ _ _ _ => trivial
  | vset rd ra rb rc => exact completes_of_writeGroup_three (exec_vset s hWf) fun _ _ _ _ => trivial
  | vadd rd ra rb => exact completes_of_writeGroup_three (exec_vadd s hWf) fun _ _ _ _ => trivial
  | vsub rd ra rb => exact completes_of_writeGroup_three (exec_vsub s hWf) fun _ _ _ _ => trivial
  | vmul rd ra rb => exact completes_of_writeGroup_three (exec_vmul s hWf) fun _ _ _ _ => trivial
  | vscale rd ra rb => exact completes_of_writeGroup_three (exec_vscale s hWf) fun _ _ _ _ => trivial
  | vdot rd ra rb => exact completes_of_write (exec_vdot s hWf) trivial
  | vcross rd ra rb => exact completes_of_writeGroup_three (exec_vcross s hWf) fun _ _ _ _ => trivial

/-- The fault record is in the frame of a command that completes. -/
theorem noFault_of_completes {written : List Reg} (hf : s.fault = false)
    (h : Completes i s written fun _ => True) : Completes i s written fun t => t.fault = false := by
  obtain ⟨t, ht, hFrame, -⟩ := h
  have ⟨_, hFault, _⟩ := hFrame
  exact ⟨t, ht, hFrame, hFault.trans hf⟩

end Faults

/-- Settles O20: the three cases are the guards of the five commands that have one; behind them, and for the other
commands, there is only the write of the destination. -/
theorem onlyFiveCommandsCanFault : Obligations.OnlyFiveCommandsCanFault := by
  intro i s hWf hf
  exact ⟨ZeroDivisor.faults, OutOfDomain.faults, IndexOutside.faults, fun hDiv hRecip hLerp =>
    noFault_of_completes hf (completes_of_noFaultCase hWf hDiv hRecip hLerp)⟩

end Sys2Proof.Machine
end

section
/-! The decoder and the encoder as inverses (30_encoding.md sections 1 to 4). The word of a command has the fixed bits
of its row, so the decoder's checks pass on it and it is read back. Conversely a word is its row's fixed bits and the
fields the row reads, so a word read as a command is the word of that command. -/

namespace Sys2Proof

open Machine

variable {row : OpcodeRow} {v w : Word} {i : Instr}

/-! ## The word of a command -/

/-- The lemmas of the encoder's rows, for every command. -/
theorem encodesRow : ∀ i : Instr, Laws.EncodesRow.Statement i
  | .fromint .. => Laws.EncodesRow.fromint ..
  | .touint .. => Laws.EncodesRow.touint ..
  | .tofrac .. => Laws.EncodesRow.tofrac ..
  | .toint .. => Laws.EncodesRow.toint ..
  | .add .. => Laws.EncodesRow.add ..
  | .sub .. => Laws.EncodesRow.sub ..
  | .mul .. => Laws.EncodesRow.mul ..
  | .mul64 .. => Laws.EncodesRow.mul64 ..
  | .div .. => Laws.EncodesRow.div ..
  | .div64 .. => Laws.EncodesRow.div64 ..
  | .recimul .. => Laws.EncodesRow.recimul ..
  | .lerp16 .. => Laws.EncodesRow.lerp16 ..
  | .lerp32 .. => Laws.EncodesRow.lerp32 ..
  | .sin .. => Laws.EncodesRow.sin ..
  | .cos .. => Laws.EncodesRow.cos ..
  | .recip .. => Laws.EncodesRow.recip ..
  | .ptset .. => Laws.EncodesRow.ptset ..
  | .ptadd .. => Laws.EncodesRow.ptadd ..
  | .ptsub .. => Laws.EncodesRow.ptsub ..
  | .ptscale .. => Laws.EncodesRow.ptscale ..
  | .ptcross .. => Laws.EncodesRow.ptcross ..
  | .ptdot .. => Laws.EncodesRow.ptdot ..
  | .ptinrect .. => Laws.EncodesRow.ptinrect ..
  | .rcset .. => Laws.EncodesRow.rcset ..
  | .rcseto .. => Laws.EncodesRow.rcseto ..
  | .rcwidth .. => Laws.EncodesRow.rcwidth ..
  | .rcheight .. => Laws.EncodesRow.rcheight ..
  | .rcsetpos .. => Laws.EncodesRow.rcsetpos ..
  | .rcsetsize .. => Laws.EncodesRow.rcsetsize ..
  | .rcmove .. => Laws.EncodesRow.rcmove ..
  | .rcinfl .. => Laws.EncodesRow.rcinfl ..
  | .rcinflr .. => Laws.EncodesRow.rcinflr ..
  | .rcnorm .. => Laws.EncodesRow.rcnorm ..
  | .vset .. => Laws.EncodesRow.vset ..
  | .vadd .. => Laws.EncodesRow.vadd ..
  | .vsub .. => Laws.EncodesRow.vsub ..
  | .vmul .. => Laws.EncodesRow.vmul ..
  | .vscale .. => Laws.EncodesRow.vscale ..
  | .vdot .. => Laws.EncodesRow.vdot ..
  | .vcross .. => Laws.EncodesRow.vcross ..

/-- The decoder makes the checks of the command's own row, and reads the command itself. -/
theorem decode_encode (hWf : i.wellFormed = true) : decode (encode i) = .ok i := by
  obtain ⟨row, hRow, -, hMask⟩ := encodesRow i
  obtain ⟨j, hRowCheck, -⟩ := decode_of_opcode hRow (opcodeField_of_and_mask hRow hMask)
  obtain ⟨matchBits, mask, hOwnCheck⟩ := decode_encode_eq_checkRow i
  cases hd : decode (encode i) with
  | ok k =>
    obtain ⟨-, -, rfl⟩ := checkRow_eq_ok.1 (hOwnCheck ▸ hd)
    rfl
  | error e =>
    obtain ⟨-, hBits⟩ | ⟨rfl, -, -⟩ := checkRow_eq_error (hRowCheck ▸ hd)
    · exact absurd hMask hBits
    · obtain ⟨hNe, -⟩ | ⟨-, -, hNotWf⟩ := checkRow_eq_error (hOwnCheck ▸ hd)
      · cases hNe
      · exact absurd hWf (Bool.eq_false_iff.1 hNotWf)

/-- Settles O1: of the two checks on the word of a command, its row meets the one on the fixed bits and well-formedness
is the other. -/
theorem decodeOfEncodeIsTheCommand : Obligations.DecodeOfEncodeIsTheCommand := fun _ => decode_encode

/-! ## A word is its fixed bits and its fields -/

theorem getLsbD_of_regField_eq {lo k : Nat} (h : regField w lo = regField v lo) (h₁ : lo ≤ k) (h₂ : k < lo + 4) :
    w.getLsbD k = v.getLsbD k := by
  have hBits : w.extractLsb' lo 4 = v.extractLsb' lo 4 := BitVec.toFin_inj.1 h
  have hBit := congrArg (·.getLsbD (k - lo)) hBits
  simpa [show k - lo < 4 by omega, show lo + (k - lo) = k by omega] using hBit

theorem getLsbD_of_immField_eq {k : Nat} (h : immField w = immField v) (hk : k < 5) :
    w.getLsbD k = v.getLsbD k := by
  have hBits : w.extractLsb' 0 5 = v.extractLsb' 0 5 := BitVec.toFin_inj.1 h
  have hBit := congrArg (·.getLsbD k) hBits
  simpa [hk] using hBit

theorem getLsbD_of_and_eq {mask : Word} {k : Nat} (h : w &&& mask = v &&& mask) (hk : mask.getLsbD k = true) :
    w.getLsbD k = v.getLsbD k := by
  have hBit := congrArg (·.getLsbD k) h
  simpa [hk] using hBit

/-- The mnemonics of format I (R82, R86). -/
def immediateMnemonics : List String := ["RECIMUL", "LERP16", "LERP32"]

theorem exists_immediate (h : i.mnemonic ∈ immediateMnemonics) : ∃ imm, immediate i = some imm := by
  cases i with
  | recimul | lerp16 | lerp32 => exact ⟨_, rfl⟩
  | _ => simp [Instr.mnemonic, immediateMnemonics] at h

/-- Every bit of a row's pattern is fixed, or of a register field, or of the immediate (R81, R82, R85). -/
theorem bit_of_row : ∀ row ∈ opcodeMap, ∀ k < 32, row.mask.getLsbD k = true ∨
    (∃ f ∈ row.fields, f.2 ≤ k ∧ k < f.2 + 4) ∨ row.mnemonic ∈ immediateMnemonics ∧ k < 5 := by
  decide +kernel

/-- Two words with a row's fixed bits, from which the row reads the same command, are one word. -/
theorem OpcodeRow.Reads.word_eq (hRow : row ∈ opcodeMap) (hw : w &&& row.mask = row.matchBits)
    (hv : v &&& row.mask = row.matchBits) (hReadsW : row.Reads w i) (hReadsV : row.Reads v i) : w = v := by
  apply BitVec.eq_of_getLsbD_eq
  intro k hk
  obtain hFixed | ⟨f, hf, hLow, hHigh⟩ | ⟨hImm, hLow⟩ := bit_of_row row hRow k hk
  · exact getLsbD_of_and_eq (hw.trans hv.symm) hFixed
  · have hFields : row.operandsOf w = row.operandsOf v := hReadsW.operands_eq.symm.trans hReadsV.operands_eq
    have hField := List.map_inj_left.1 hFields f hf
    exact getLsbD_of_regField_eq (Prod.ext_iff.1 hField).2 hLow hHigh
  · obtain ⟨imm, hi⟩ := exists_immediate (hReadsW.mnemonic_eq ▸ hImm)
    exact getLsbD_of_immField_eq ((hReadsW.immediate_eq imm hi).symm.trans (hReadsV.immediate_eq imm hi)) hLow

theorem encode_of_decode (h : decode w = .ok i) : encode i = w := by
  obtain ⟨row, hRow, hAdmits, hReads⟩ := exists_row_of_decode h
  obtain ⟨hMask, hWf⟩ := hReads.admits_iff.1 hAdmits
  obtain ⟨row', hRow', hAdmits', hReads'⟩ := exists_row_of_decode (decode_encode hWf)
  obtain rfl := eq_of_mnemonic_eq hRow hRow' (hReads.mnemonic_eq.symm.trans hReads'.mnemonic_eq)
  obtain ⟨hMask', -⟩ := hReads'.admits_iff.1 hAdmits'
  exact hReads'.word_eq hRow hMask' hMask hReads

theorem wellFormed_of_decode (h : decode w = .ok i) : i.wellFormed = true := by
  obtain ⟨row, -, hAdmits, hReads⟩ := exists_row_of_decode h
  obtain ⟨-, hWf⟩ := hReads.admits_iff.1 hAdmits
  exact hWf

/-- Settles O2: the word and the encoding of the command read from it have the same row and the same fields. -/
theorem encodeOfDecodeIsTheWord : Obligations.EncodeOfDecodeIsTheWord := fun _ _ h =>
  ⟨encode_of_decode h, wellFormed_of_decode h⟩

/-- Settles O7: each word is decoded by evaluation. -/
theorem sampleWordsDecode : Obligations.SampleWordsDecode := by
  refine ⟨?_, ?_, ?_, ?_, ?_, ?_, ?_⟩ <;> decide

end Sys2Proof
end

section
/-! What every command and every step keeps: a command writes its destination group or enters one fault (10_state.md
R21, 60_exceptions.md R225 to R227), a step is one host action (20_memory.md R62), and the fault record stays sound
(60_exceptions.md R220). -/

namespace Sys2Proof.Machine

/-! ## Every command ends in one of two ways -/

section Commands

variable {i : Instr} {s t : State} {c : Cause}

/-- Only a command with a group operand can be ill-formed, and the meaning of each of those begins with the check. -/
theorem exec_of_not_wellFormed (h : i.wellFormed = false) (s : State) :
    exec i s = .next (s.raise .illegalCommand (encode i)) := by
  cases i with
  | fromint | touint | tofrac | toint | add | sub | mul | mul64 | div | div64 | recimul | lerp16 | lerp32 | sin | cos
  | recip => simp [Instr.wellFormed, Instr.operands] at h
  | ptset | ptadd | ptsub | ptscale | ptcross | ptdot | ptinrect | rcset | rcseto | rcwidth | rcheight | rcsetpos
  | rcsetsize | rcmove | rcinfl | rcinflr | rcnorm | vset | vadd | vsub | vmul | vscale | vdot | vcross =>
    exact s.ifLegal_of_not_wellFormed h _

theorem faults_of_not_wellFormed (h : i.wellFormed = false) (s : State) : FaultsWith i s .illegalCommand :=
  ⟨_, exec_of_not_wellFormed h s, s.raise_entersFault _ _⟩

/-- Settles O6: the check comes before everything else in the meaning. -/
theorem groupPastTheEndRaisesIllegalCommand : Obligations.GroupPastTheEndRaisesIllegalCommand :=
  fun _ s h => faults_of_not_wellFormed h s

/-- The faults a command can enter, by its operands in the state `s` (R221 to R224). -/
inductive FaultCase (i : Instr) (s : State) : Cause → Prop
  | illegalCommand : i.wellFormed = false → FaultCase i s .illegalCommand
  | divideByZero : ZeroDivisor i s → FaultCase i s .divideByZero
  | lutDomain : OutOfDomain i s → FaultCase i s .lutDomain
  | lutIndex : IndexOutside i s → FaultCase i s .lutIndex

theorem FaultCase.faults (h : FaultCase i s c) : FaultsWith i s c := by
  cases h with
  | illegalCommand hNotWf => exact faults_of_not_wellFormed hNotWf s
  | divideByZero hDiv => exact hDiv.faults
  | lutDomain hRecip => exact hRecip.faults
  | lutIndex hLerp => exact hLerp.faults

/-- Everything a command can do. -/
theorem faultCase_or_completes (i : Instr) (s : State) :
    (∃ c, FaultCase i s c) ∨ Completes i s i.destRegs fun _ => True := by
  refine or_iff_not_imp_left.2 fun hNone => ?_
  have hWf : i.wellFormed = true := Bool.of_not_eq_false fun h => hNone ⟨_, .illegalCommand h⟩
  exact completes_of_noFaultCase hWf (fun h => hNone ⟨_, .divideByZero h⟩) (fun h => hNone ⟨_, .lutDomain h⟩)
    fun h => hNone ⟨_, .lutIndex h⟩

theorem FaultCase.cause_ne_none (h : FaultCase i s c) : c ≠ .none := by
  rintro rfl
  cases h

end Commands

/-- Settles O18: a command in one of the fault cases only enters the fault, any other completes. -/
theorem commandsWriteOnlyTheirDestination : Obligations.CommandsWriteOnlyTheirDestination := by
  intro i s
  obtain ⟨c, hCase⟩ | ⟨t, ht, hFrame, -⟩ := faultCase_or_completes i s
  · obtain ⟨t, ht, hEnters⟩ := hCase.faults
    exact ⟨t, ht, .inr ⟨c, hCase.cause_ne_none, hEnters⟩⟩
  · exact ⟨t, ht, .inl hFrame⟩

/-! ## One step is one host action (R62) -/

/-- From `s` to `t` the script and `RESET_GPR` are as they were and the host has read at most one word more. -/
structure State.KeepsHostSide (s t : State) : Prop where
  script_eq : t.script = s.script
  resetGpr_eq : t.resetGpr = s.resetGpr
  returned_eq : t.returned = s.returned ∨ ∃ v, t.returned = v :: s.returned

section HostSide

variable {s t : State}

theorem exec_keepsHostSide {i : Instr} (h : exec i s = .next t) : s.KeepsHostSide t := by
  obtain ⟨t', ht', hEnd⟩ := commandsWriteOnlyTheirDestination i s
  cases ht'.symm.trans h
  obtain ⟨-, -, -, -, hGpr, hScript, hReturned⟩ | ⟨-, -, -, -, -, -, -, hGpr, hScript, hReturned⟩ := hEnd
  · exact ⟨hScript, hGpr, .inl hReturned⟩
  · exact ⟨hScript, hGpr, .inl hReturned⟩

end HostSide

/-- Everything that one host action can make of the block. -/
inductive ActionEffect (s : State) : State → Prop
  | unchanged : ActionEffect s s
  | returned (v : Word) : ActionEffect s (s.returnWord v)
  | written (r : Reg) (v : Word) : ActionEffect s (s.write r v)
  | cleared : ActionEffect s s.clearFault
  | reset : ActionEffect s s.resetBlock
  | illegal {w : Word} {e : Illegal} :
      s.fault = false → decode w = .error e → ActionEffect s (s.raise .illegalCommand w)
  | executed {w : Word} {i : Instr} {t : State} :
      s.fault = false → decode w = .ok i → exec i s = .next t → ActionEffect s t

section Action

variable {s t : State} {a : HostAction} {rest : List HostAction}

theorem writeCmd_effect {w : Word} (h : s.writeCmd w = .next t) : ActionEffect s t := by
  obtain ⟨-, hw⟩ | ⟨hf, ⟨e, hd⟩, hw⟩ | ⟨i, hf, hd, hw⟩ := writeCmd_cases s w
  · cases hw.symm.trans h
    exact .unchanged
  · cases hw.symm.trans h
    exact .illegal hf hd
  · exact .executed hf hd (hw.symm.trans h)

theorem writeStatus_effect (s : State) (v : Word) : ActionEffect s (s.writeStatus v) := by
  cases hv : v.getLsbD 0 with
  | true => exact State.writeStatus_of_set hv ▸ .cleared
  | false => exact (State.writeStatus_of_clear hv).symm ▸ .unchanged

theorem writeLoc_effect {loc : WindowLoc} {v : Word} (h : s.writeLoc loc v = .next t) : ActionEffect s t := by
  cases loc with
  | reg r => cases h; exact .written r v
  | cmd => exact writeCmd_effect h
  | status => cases h; exact writeStatus_effect s v
  | faultCmd => cases h; exact .unchanged

theorem busRead_effect {addr n : Nat} (h : s.busRead addr n = .next t) : ActionEffect s t := by
  cases hLoc : locate addr n with
  | ok loc =>
    rw [State.busRead, hLoc] at h
    cases h
    exact .returned _
  | error r =>
    rw [State.busRead, hLoc] at h
    cases h

theorem busWrite_effect {addr : Nat} {bytes : List Byte} (h : s.busWrite addr bytes = .next t) :
    ActionEffect s t := by
  rw [State.busWrite] at h
  split at h
  next => exact writeLoc_effect h
  all_goals cases h

theorem act_effect (h : act a s = .next t) : ActionEffect s t := by
  cases a with
  | read loc => cases h; exact .returned _
  | write loc v => exact writeLoc_effect h
  | reset => cases h; exact .reset
  | memRead addr n => exact busRead_effect h
  | memWrite addr bytes => exact busWrite_effect h

theorem step_effect (hScript : s.script = a :: rest) (h : step s = .next t) : ActionEffect (s.withScript rest) t :=
  act_effect ((step_cons hScript).symm.trans h)

theorem ActionEffect.keepsHostSide (h : ActionEffect s t) : s.KeepsHostSide t := by
  cases h with
  | returned v => exact ⟨rfl, rfl, .inr ⟨v, rfl⟩⟩
  | executed _ _ hExec => exact exec_keepsHostSide hExec
  | unchanged | written | cleared | reset | illegal => exact ⟨rfl, rfl, .inl rfl⟩

end Action

/-- Settles O17: of everything an action can do nothing touches the script, and only a read returns a word. -/
theorem stepPerformsExactlyOneHostAction : Obligations.StepPerformsExactlyOneHostAction := by
  refine ⟨fun s t a rest hScript h => ?_, fun s => step_nil⟩
  obtain ⟨hRest, hGpr, hReturned⟩ := (step_effect hScript h).keepsHostSide
  exact ⟨hRest, hGpr, hReturned⟩

/-! ## The fault record stays sound (R220) -/

section FaultRecord

variable {s t : State} {w : Word} {i : Instr} {c : Cause}

theorem State.faultRecordSound_of_noFault (hf : s.fault = false) (hc : s.cause = .none) (hw : s.faultCmd = 0) :
    s.faultRecordSound = true := by
  simp [State.faultRecordSound, hf, hc, hw]

theorem State.faultRecordSound_of_fault (hf : s.fault = true) (h : s.cause.fitsWord s.faultCmd = true) :
    s.faultRecordSound = true := by
  simpa [State.faultRecordSound, hf] using h

/-- The record is three fields of the state; a change elsewhere does not matter. -/
theorem State.faultRecordSound_congr (hf : t.fault = s.fault) (hc : t.cause = s.cause)
    (hw : t.faultCmd = s.faultCmd) : t.faultRecordSound = s.faultRecordSound := by
  simp only [State.faultRecordSound, hf, hc, hw]

theorem illegalCommand_fitsWord {e : Illegal} (hd : decode w = .error e) : Cause.fitsWord .illegalCommand w = true := by
  simp [Cause.fitsWord, hd]

/-- The word of a legal command fits each fault that the command has a case of. -/
theorem FaultCase.fitsWord (h : FaultCase i s c) (hd : decode w = .ok i) : c.fitsWord w = true := by
  cases h with
  | illegalCommand hNotWf => exact absurd (wellFormed_of_decode hd) (Bool.eq_false_iff.1 hNotWf)
  | divideByZero hDiv => obtain ⟨rd, ra, rb, rfl | rfl, -⟩ := hDiv <;> simp [Cause.fitsWord, hd]
  | lutDomain hRecip => obtain ⟨rd, ra, rfl, -⟩ := hRecip; simp [Cause.fitsWord, hd]
  | lutIndex hLerp => obtain ⟨rd, ra, imm, ⟨rfl, -⟩ | ⟨rfl, -⟩⟩ := hLerp <;> simp [Cause.fitsWord, hd]

/-- A command that completes leaves the record; one that faults records its own word, which is the word decoded. -/
theorem exec_keeps_faultRecordSound (hSound : s.faultRecordSound = true) (hd : decode w = .ok i)
    (h : exec i s = .next t) : t.faultRecordSound = true := by
  obtain ⟨c, hCase⟩ | ⟨u, hu, hFrame, -⟩ := faultCase_or_completes i s
  · obtain ⟨u, hu, hFault, hCause, hWord, -⟩ := hCase.faults
    cases hu.symm.trans h
    refine State.faultRecordSound_of_fault hFault ?_
    rw [hCause, hWord, encode_of_decode hd]
    exact hCase.fitsWord hd
  · cases hu.symm.trans h
    obtain ⟨-, hFault, hCause, hWord, -⟩ := hFrame
    rwa [State.faultRecordSound_congr hFault hCause hWord]

theorem ActionEffect.keeps_faultRecordSound (h : ActionEffect s t) (hSound : s.faultRecordSound = true) :
    t.faultRecordSound = true := by
  cases h with
  | unchanged | returned | written => exact hSound
  | cleared | reset => exact State.faultRecordSound_of_noFault rfl rfl rfl
  | illegal _ hd => exact State.faultRecordSound_of_fault rfl (illegalCommand_fitsWord hd)
  | executed _ hd hExec => exact exec_keeps_faultRecordSound hSound hd hExec

theorem faultRecordSound_resetWith (gpr : Vector Word 16) : (State.resetWith gpr).faultRecordSound = true :=
  State.faultRecordSound_of_noFault rfl rfl rfl

end FaultRecord

/-- Settles O21: the empty script changes nothing, and each effect of an action leaves the record sound. -/
theorem everyStepKeepsTheFaultRecordSound : Obligations.EveryStepKeepsTheFaultRecordSound := by
  intro s t hSound h
  cases hScript : s.script with
  | nil =>
    cases (step_nil hScript).symm.trans h
    exact hSound
  | cons a rest => exact (step_effect hScript h).keeps_faultRecordSound (by simpa using hSound)

/-- Settles O22: the reset state is the one for the model's own `RESET_GPR`. -/
theorem faultRecordSoundAtReset : Obligations.FaultRecordSoundAtReset := faultRecordSound_resetWith _

/-- Settles O15: every field but the registers is fixed by reset, whatever the parameter. -/
theorem resetLeavesNoFault : Obligations.ResetLeavesNoFault := fun gpr =>
  ⟨State.statusWord_eq_zero rfl rfl, rfl, rfl, rfl, fun _ => rfl, faultRecordSound_resetWith gpr, rfl⟩

/-! ## The register window (10_state.md R30, 20_memory.md R60, R61) -/

theorem locate_refuses {addr n : Nat} (h : n ≠ 4 ∨ addr % 4 ≠ 0 ∨ 0x4C ≤ addr) : ∃ r, locate addr n = .error r := by
  by_cases hAccess : n ≠ 4 ∨ addr % 4 ≠ 0
  · exact ⟨_, if_pos hAccess⟩
  · refine ⟨.outsideWindow addr, ?_⟩
    rw [locate, if_neg hAccess, if_neg (by omega), if_neg (by omega), if_neg (by omega), if_neg (by omega)]

theorem exists_loc_of_offset {addr : Nat} (hAligned : addr % 4 = 0) (h : addr < 0x4C) :
    ∃ loc : WindowLoc, loc.offset = addr := by
  by_cases hReg : addr < 0x40
  · exact ⟨.reg ⟨addr / 4, by omega⟩, Nat.mul_div_cancel' (Nat.dvd_of_mod_eq_zero hAligned)⟩
  · obtain rfl | rfl | rfl : addr = 0x40 ∨ addr = 0x44 ∨ addr = 0x48 := by omega
    · exact ⟨.cmd, rfl⟩
    · exact ⟨.status, rfl⟩
    · exact ⟨.faultCmd, rfl⟩

/-- Settles O16: `locate` decides both kinds of access, and finds each location at its offset. -/
theorem onlyAlignedWordsReachTheWindow : Obligations.OnlyAlignedWordsReachTheWindow := by
  refine ⟨fun s loc => ?reads, fun s loc v => ?writes, fun s addr n h => ?readRefused,
    fun s addr bytes h => ?writeRefused, fun addr => exists_loc_of_offset⟩
  case reads => rw [State.busRead, locate_offset]
  case writes =>
    have hLength : (bytesOfWord v).length = 4 := rfl
    rw [State.busWrite, hLength, locate_offset, wordOfBytes_bytesOfWord]
  case readRefused =>
    obtain ⟨r, hr⟩ := locate_refuses h
    exact ⟨r, by rw [State.busRead, hr]⟩
  case writeRefused =>
    obtain ⟨r, hr⟩ := locate_refuses h
    exact ⟨r, by rw [State.busWrite, hr]⟩

end Sys2Proof.Machine
end

section
/-! Laws of the arithmetic commands that reach beyond one of them: RECIMUL with RECIPK's constant (40_fixedpoint.md
R123), the host's conversions (R124, R125), the bounds of an interpolated value (41_interpolator.md R143) and the laws
of the sine (42_lutengine.md R153). -/

namespace Sys2Proof.Machine

/-! ## Division by multiplication (R123) -/

section Reciprocal

variable {a m x : Int} {fp : Nat}

/-- RECIPK's constant is a ceiling of `2^fp / a`, so the excess `e = m * a - 2^fp` of R123 is not negative. -/
theorem recipK_eq_some (h : recipK a fp = some m) : 1 ≤ a ∧ 2 ^ fp ≤ m * a := by
  simp only [recipK, Option.ite_none_right_eq_some, Option.some.injEq] at h
  obtain ⟨⟨ha, -⟩, -, hm⟩ := h
  have hAbove := Int.lt_ediv_add_one_mul_self (2 ^ fp + a - 1) (show 0 < a by omega)
  rw [hm] at hAbove
  exact ⟨ha, by linarith⟩

/-- The multiplication overestimates `x / a` by `x * (m * a - k) / (k * a)`, which below `1 / a` never reaches the next
integer. -/
theorem mul_ediv_eq_ediv {k : Int} (ha : 1 ≤ a) (hk : 0 < k) (hm : k ≤ m * a) (hx : 0 ≤ x) (h : x * (m * a - k) < k) :
    x * m / k = x / a := by
  have ha' : 0 < a := by omega
  have hLow : x / a * a ≤ x := Int.ediv_mul_le x ha'.ne'
  have hHigh : x + 1 ≤ (x / a + 1) * a := Int.lt_ediv_add_one_mul_self x ha'
  have hScale : x * k ≤ x * (m * a) := mul_le_mul_of_nonneg_left hm hx
  rw [Int.ediv_eq_iff_of_pos hk]
  constructor
  · refine le_of_mul_le_mul_right ?_ ha'
    calc x / a * k * a = x / a * a * k := by ring
      _ ≤ x * k := mul_le_mul_of_nonneg_right hLow hk.le
      _ ≤ x * m * a := by linarith
  · refine lt_of_mul_lt_mul_right ?_ ha'.le
    calc x * m * a < (x + 1) * k := by linarith
      _ ≤ (x / a + 1) * a * k := mul_le_mul_of_nonneg_right hHigh hk.le
      _ = (x / a * k + k) * a := by ring

end Reciprocal

/-- Settles O35: the shifted product is the quotient, which as the quotient of a numerator that fits fits too. -/
theorem recimulIsExactInsideTheSafetyBound : Obligations.RecimulIsExactInsideTheSafetyBound := by
  intro rd ra rb imm s a m hConstant hm hx hBound
  obtain ⟨ha, hExcess⟩ := recipK_eq_some hConstant
  have hQuotient : s.sx ra * m / 2 ^ imm.val = s.sx ra / a :=
    mul_ediv_eq_ediv ha (by positivity) hExcess hx hBound
  have hUpper : s.sx ra / a ≤ s.sx ra := Int.ediv_le_self a hx
  have hFits : s.sx ra < 2 ^ 31 := s32_upper _
  have hNonneg : 0 ≤ s.sx ra / a := Int.ediv_nonneg hx (by omega)
  have hm' : s.sx rb = m := hm
  refine completes_of_write (exec_recimul rd ra rb imm s) ?_
  rw [State.reg_write_self, hm', mulShift, asr, hQuotient]
  exact s32_wrap32 (by omega) (by omega)

/-! ## The host's conversions (R124, R125) -/

theorem truncRat_neg (q : ℚ) : truncRat (-q) = -truncRat q := by
  rw [truncRat, truncRat, Rat.neg_num, Rat.neg_den, Int.neg_tdiv]

theorem truncRat_of_nonneg {q : ℚ} (h : 0 ≤ q) : truncRat q = ⌊q⌋ := by
  rw [truncRat, Int.tdiv_eq_ediv_of_nonneg (Rat.num_nonneg.2 h), Rat.floor_def']

theorem truncRat_intCast (n : Int) : truncRat n = n := by
  rw [truncRat, Rat.num_intCast, Rat.den_intCast, Nat.cast_one, Int.tdiv_one]

/-- `p` is `q` rounded toward zero by less than `u`. -/
structure RoundsTowardZero (u q p : ℚ) : Prop where
  abs_le : |p| ≤ |q|
  abs_sub_lt : |q - p| < u
  mul_nonneg : 0 ≤ q * p

theorem RoundsTowardZero.neg {u q p : ℚ} (h : RoundsTowardZero u (-q) (-p)) : RoundsTowardZero u q p where
  abs_le := by simpa using h.abs_le
  abs_sub_lt := by
    have hSub := h.abs_sub_lt
    rwa [← neg_sub', abs_neg] at hSub
  mul_nonneg := by simpa using h.mul_nonneg

theorem truncRat_roundsTowardZero (q : ℚ) : RoundsTowardZero 1 q (truncRat q) := by
  have hNonneg {q : ℚ} (h : 0 ≤ q) : RoundsTowardZero 1 q (truncRat q) := by
    have hFloor : (0 : ℚ) ≤ ⌊q⌋ := by exact_mod_cast Int.floor_nonneg.2 h
    have hLow := Int.floor_le q
    have hHigh := Int.lt_floor_add_one q
    rw [truncRat_of_nonneg h]
    exact ⟨by rwa [abs_of_nonneg hFloor, abs_of_nonneg h], abs_lt.2 ⟨by linarith, by linarith⟩, mul_nonneg h hFloor⟩
  rcases le_total 0 q with h | h
  · exact hNonneg h
  · refine RoundsTowardZero.neg ?_
    have hTrunc : ((truncRat (-q) : Int) : ℚ) = -truncRat q := by rw [truncRat_neg, Int.cast_neg]
    exact hTrunc ▸ hNonneg (neg_nonneg.2 h)

theorem RoundsTowardZero.div_256 {f p : ℚ} (h : RoundsTowardZero 1 (f * 256) p) :
    RoundsTowardZero (1 / 256) f (p / 256) where
  abs_le := by
    have hAbs := h.abs_le
    rw [abs_mul, abs_of_pos (show (0 : ℚ) < 256 by norm_num)] at hAbs
    rw [abs_div, abs_of_pos (show (0 : ℚ) < 256 by norm_num)]
    linarith
  abs_sub_lt := by
    have hSub := abs_lt.1 h.abs_sub_lt
    rw [abs_lt]
    constructor <;> linarith
  mul_nonneg := by
    have hMul := h.mul_nonneg
    linarith

theorem fromFloat_eq_some {f : ℚ} {w : Word} (h : fromFloat f = some w) : s32 w = truncRat (f * 256) := by
  simp only [fromFloat, Option.ite_none_right_eq_some, Option.some.injEq] at h
  obtain ⟨⟨hLow, hHigh⟩, rfl⟩ := h
  exact s32_wrap32 hLow hHigh

theorem fromFloat_toFloat (w : Word) : fromFloat (toFloat w) = some w := by
  have hTrunc : truncRat (toFloat w * 256) = s32 w := by
    rw [toFloat, div_mul_cancel₀ _ (by norm_num), truncRat_intCast]
  rw [fromFloat, hTrunc, wrap32_s32]
  exact if_pos ⟨s32_lower w, s32_upper w⟩

/-- Settles O37: both conversions scale by 256, and between them stands only the truncation of the scaled number. -/
theorem floatConversionsRoundTrip : Obligations.FloatConversionsRoundTrip := by
  refine ⟨fromFloat_toFloat, fun f w h => ?_⟩
  have hRounds := (truncRat_roundsTowardZero (f * 256)).div_256
  rw [← fromFloat_eq_some h] at hRounds
  exact ⟨hRounds.abs_le, hRounds.abs_sub_lt, hRounds.mul_nonneg⟩

/-! ## The interpolated value (R143) -/

/-- The value `v` interpolated from `a` to `b` with the fraction `f`: it starts at `a` and stays short of `b`. -/
structure Interpolates (a b : Int) (f : Nat) (v : Int) : Prop where
  start : f = 0 → v = a
  rising : a < b → a ≤ v ∧ v ≤ b - 1
  level : a = b → v = a
  falling : b < a → f ≠ 0 → b ≤ v ∧ v ≤ a - 1

theorem interpolates_add_ediv {a b k : Int} {f : Nat} (hfk : (f : Int) < k) :
    Interpolates a b f (a + (b - a) * f / k) := by
  have hk : 0 < k := by omega
  refine ⟨fun hf => ?start, fun hab => ?rising, fun hab => ?level, fun hab hf => ?falling⟩
  case start => simp [hf]
  case level => simp [hab]
  case rising =>
    have hLow : 0 ≤ (b - a) * f / k := Int.ediv_nonneg (mul_nonneg (by omega) (by omega)) hk.le
    have hHigh : (b - a) * f / k < b - a := Int.ediv_lt_of_lt_mul hk (mul_lt_mul_of_pos_left hfk (by omega))
    omega
  case falling =>
    have hHigh : (b - a) * f / k < 0 := Int.ediv_neg_of_neg_of_pos (mul_neg_of_neg_of_pos (by omega) (by omega)) hk
    have hLow : b - a ≤ (b - a) * f / k :=
      (Int.le_ediv_iff_mul_le hk).2 (mul_le_mul_of_nonpos_left hfk.le (by omega))
    omega

theorem interpolates_lerp (T : Nat → Int) (x s : Nat) :
    Interpolates (T (x / 2 ^ s)) (T (x / 2 ^ s + 1)) (x % 2 ^ s) (lerp T x s) := by
  rw [lerp_eq_add_ediv]
  exact interpolates_add_ediv (by exact_mod_cast Nat.mod_lt x (by positivity : 0 < 2 ^ s))

/-- Settles O40: entries so small are interpolated without a wrap, so the register holds the value of R140. -/
theorem interpolatedValueLiesBetweenTheSamples : Obligations.InterpolatedValueLiesBetweenTheSamples := by
  intro rd ra imm s t i between
  have hBetween {T : Nat → Int} (ha : T i ∈ Set.Icc (-65536) 65536) (hb : T (i + 1) ∈ Set.Icc (-65536) 65536)
      (ht : t.reg rd = wrap32 (lerp T (s.ux ra) imm.val)) : between (T i) (T (i + 1)) := by
    have hValue : (t.reg rd).toInt = lerp T (s.ux ra) imm.val := ht ▸ s32_wrap32_lerp ha hb
    obtain ⟨hStart, hRising, hLevel, hFalling⟩ := hValue ▸ interpolates_lerp T (s.ux ra) imm.val
    exact ⟨hStart, hRising, hLevel, hFalling⟩
  refine ⟨fun hi ht => ?sine, fun h₁ h₂ ht => ?reciprocal⟩
  case sine =>
    exact hBetween (sinLut_mem_Icc (by omega)) (sinLut_mem_Icc (by omega)) (reg_of_exec (exec_lerp16 rd hi) ht)
  case reciprocal =>
    exact hBetween (divLutSigned_mem_Icc h₁ (by omega)) (divLutSigned_mem_Icc (by omega) (by omega))
      (reg_of_exec (exec_lerp32 rd h₁ h₂) ht)

/-! ## The laws of the sine (R153) -/

section SineLaws

variable {theta theta' : Word} {i : Nat}

/-- The sample index of an angle moves by `n` when the angle moves by `128 * n`, also where the sum wraps. -/
theorem sinSample_of_add {n : Nat} (h : theta' = theta + BitVec.ofNat 32 (128 * n)) :
    sinSample theta' 0 = sinSample theta n := by
  rw [sinSample_eq_sinLut, sinSample_eq_sinLut, h, BitVec.toNat_add, BitVec.toNat_ofNat]
  exact congrArg sinLut (by omega)

theorem sinSample_turn (theta : Word) : sinSample theta 512 = sinSample theta 0 := by
  rw [sinSample_eq_sinLut, sinSample_eq_sinLut, Nat.add_mod_right, Nat.add_zero]

theorem sinLut_half_mod (hi : i < 512) : sinLut ((i + 256) % 512) = -sinLut i := by
  rcases lt_or_ge i 256 with h | h
  · rw [Nat.mod_eq_of_lt (by omega), sinLut_add_half (by omega)]
  · obtain ⟨k, rfl⟩ := Nat.exists_eq_add_of_le' h
    rw [show (k + 256 + 256) % 512 = k by omega, sinLut_add_half (by omega), neg_neg]

theorem sinSample_half (theta : Word) : sinSample theta 256 = -sinSample theta 0 := by
  rw [sinSample_eq_sinLut, sinSample_eq_sinLut, ← sinLut_half_mod (Nat.mod_lt _ (by norm_num))]
  exact congrArg sinLut (by omega)

/-- The sample after the last one is the first guard entry. -/
theorem sinLut_next_mod (hi : i < 512) : |sinLut ((i + 1) % 512) - sinLut i| ≤ 51 := by
  have hStep := sinLut_step hi.le
  rcases eq_or_ne i 511 with rfl | h
  · rwa [show 511 + 1 = 0 + 512 from rfl, sinLut_add_turn (by omega)] at hStep
  · rwa [Nat.mod_eq_of_lt (by omega)]

theorem abs_sinSample_next_sub_le (theta : Word) : |sinSample theta 1 - sinSample theta 0| ≤ 51 := by
  have hNext := sinLut_next_mod (Nat.mod_lt (theta.toNat / 128) (show 512 > 0 by norm_num))
  rwa [sinSample_eq_sinLut, sinSample_eq_sinLut, ← Nat.mod_add_mod]

end SineLaws

/-- Settles O43: each sum moves the sample index by 512, 128, 256 or 1, and the table has the law for that shift. -/
theorem sineLawsHoldForEveryAngle : Obligations.SineLawsHoldForEveryAngle := by
  intro rd ra s s' t t' u ht ht' hu
  rw [reg_of_exec (exec_sin rd ra s) ht, reg_of_exec (exec_sin rd ra s') ht', reg_of_exec (exec_cos rd ra s) hu]
  refine ⟨fun h => ?turn, fun h => ?quarter, fun h => ?half, fun h => ?next⟩
  case turn => rw [sinSample_of_add (n := 512) h, sinSample_turn]
  case quarter => rw [sinSample_of_add (n := 128) h]
  case half =>
    rw [sinSample_of_add (n := 256) h]
    exact (s32_wrap32_sinSample _ _).trans
      ((sinSample_half _).trans (congrArg Neg.neg (s32_wrap32_sinSample _ _)).symm)
  case next =>
    have hNow := s32_wrap32_sinSample (s.reg ra) 0
    have hNext := s32_wrap32_sinSample (s.reg ra) 1
    rw [sinSample_of_add (n := 1) h]
    exact (congrArg₂ (fun p q => |p - q|) hNext hNow).trans_le (abs_sinSample_next_sub_le _)

end Sys2Proof.Machine
end

section
/-! What a command reads (10_state.md R21, 00_scope.md R12). Two states that agree on a command's source registers give
its fault cases the same operands and its group write the same patterns, so they end in the same fault or with the same
values in the destination. -/

namespace Sys2Proof.Machine

/-! ## A group write, by the registers of the group -/

/-- The `n` consecutive registers from `r` on. -/
def groupRegs (r : Reg) : Nat → List Reg
  | 0 => []
  | n + 1 => r :: groupRegs (r + 1) n

theorem operand_regs_eq_groupRegs (o : Operand) : o.regs = groupRegs o.2 o.1.size := by
  obtain ⟨kind, r⟩ := o
  have ⟨hTwo, hThree⟩ := reg_add_assoc r
  cases kind <;> simp [Operand.regs, Kind.size, groupRegs, hTwo, hThree]

section GroupWrite

variable {s₁ s₂ : State} {q r : Reg}

/-- The same patterns written to the same group keep an agreement of two states on any register. -/
theorem reg_writeGroup_congr (vs : List Word) (h : s₁.reg q = s₂.reg q) :
    (s₁.writeGroup r vs).reg q = (s₂.writeGroup r vs).reg q := by
  induction vs generalizing s₁ s₂ r with
  | nil => exact h
  | cons v vs ih =>
    refine ih ?_
    rw [State.reg_write, State.reg_write, h]

/-- And they establish it on the group. -/
theorem reg_writeGroup_eq (s₁ s₂ : State) (vs : List Word) (hq : q ∈ groupRegs r vs.length) :
    (s₁.writeGroup r vs).reg q = (s₂.writeGroup r vs).reg q := by
  induction vs generalizing s₁ s₂ r with
  | nil => cases hq
  | cons v vs ih =>
    obtain rfl | hRest := List.mem_cons.1 hq
    · exact reg_writeGroup_congr vs (by simp)
    · exact ih _ _ hRest

end GroupWrite

/-! ## Agreement on the sources -/

section Sources

variable {r : Reg}

@[simp] theorem operand_regs_reg : Operand.regs (.reg, r) = [r] := rfl
@[simp] theorem operand_regs_point : Operand.regs (.point, r) = [r, r + 1] := rfl
@[simp] theorem operand_regs_vector : Operand.regs (.vector, r) = [r, r + 1, r + 2] := rfl
@[simp] theorem operand_regs_rect : Operand.regs (.rect, r) = [r, r + 1, r + 2, r + 3] := rfl

@[simp] theorem mem_sourceRegs {i : Instr} : r ∈ i.sourceRegs ↔ ∃ o ∈ i.operands.drop 1, r ∈ o.regs :=
  List.mem_flatMap

end Sources

/-- The two states hold the same patterns in the registers that `i` reads. -/
def AgreeOnSources (i : Instr) (s₁ s₂ : State) : Prop := ∀ r ∈ i.sourceRegs, s₁.reg r = s₂.reg r

section Agreement

variable {i : Instr} {s₁ s₂ t₁ t₂ : State} {c : Cause}

theorem AgreeOnSources.reg_eq (h : AgreeOnSources i s₁ s₂) {r : Reg} (hr : r ∈ i.sourceRegs) :
    s₁.reg r = s₂.reg r := h r hr

theorem AgreeOnSources.sx_eq (h : AgreeOnSources i s₁ s₂) {r : Reg} (hr : r ∈ i.sourceRegs) :
    s₁.sx r = s₂.sx r := congrArg s32 (h r hr)

theorem AgreeOnSources.ux_eq (h : AgreeOnSources i s₁ s₂) {r : Reg} (hr : r ∈ i.sourceRegs) :
    s₁.ux r = s₂.ux r := congrArg u32 (h r hr)

theorem AgreeOnSources.symm (h : AgreeOnSources i s₁ s₂) : AgreeOnSources i s₂ s₁ := fun r hr => (h r hr).symm

/-- A command has one next state, so a fault it can enter is the one it entered. -/
theorem of_faults (h : FaultsWith i s₁ c) (ht : exec i s₁ = .next t₁) : s₁.EntersFault t₁ c (encode i) := by
  obtain ⟨t, ht', hEnters⟩ := h
  cases ht'.symm.trans ht
  exact hEnters

/-- A fault case looks at no register but a source of its command. -/
theorem FaultCase.of_agree (hCase : FaultCase i s₁ c) (h : AgreeOnSources i s₁ s₂) : FaultCase i s₂ c := by
  cases hCase with
  | illegalCommand hNotWf => exact .illegalCommand hNotWf
  | divideByZero hDiv =>
    obtain ⟨rd, ra, rb, hi, hZero⟩ := hDiv
    have hb : s₁.reg rb = s₂.reg rb := h rb (by obtain rfl | rfl := hi <;> simp [Instr.operands])
    exact .divideByZero ⟨rd, ra, rb, hi, hb ▸ hZero⟩
  | lutDomain hRecip =>
    obtain ⟨rd, ra, rfl, hArg⟩ := hRecip
    have ha : s₁.reg ra = s₂.reg ra := h ra (by simp [Instr.operands])
    exact .lutDomain ⟨rd, ra, rfl, ha ▸ hArg⟩
  | lutIndex hLerp =>
    obtain ⟨rd, ra, imm, hi⟩ := hLerp
    have ha : s₁.reg ra = s₂.reg ra :=
      h ra (by obtain ⟨rfl, -⟩ | ⟨rfl, -⟩ := hi <;> simp [Instr.operands])
    exact .lutIndex ⟨rd, ra, imm, ha ▸ hi⟩

end Agreement

/-! ## What a command writes comes from its sources -/

/-- Where it does not fault, the command is the write of patterns to its destination that two states agreeing on its
sources have in common. -/
def WritesFromSources (i : Instr) : Prop :=
  ∃ (o : Operand) (vs : State → List Word), i.destRegs = o.regs ∧ (∀ s, (vs s).length = o.1.size) ∧
    (∀ s, (∀ c, ¬FaultCase i s c) → exec i s = .next (s.writeGroup o.2 (vs s))) ∧
    ∀ {s₁ s₂}, AgreeOnSources i s₁ s₂ → vs s₁ = vs s₂

section WritesFromSources

variable {i : Instr} {rd : Reg} {v : State → Word} {vs : State → List Word}

/-- For a given command the length and the agreement of the patterns are seen from what they are computed of. -/
theorem WritesFromSources.of_group (o : Operand)
    (hExec : ∀ s, (∀ c, ¬FaultCase i s c) → exec i s = .next (s.writeGroup o.2 (vs s)))
    (hDest : i.destRegs = o.regs := by rfl) (hLength : ∀ s, (vs s).length = o.1.size := by exact fun _ => rfl)
    (hSame : ∀ {s₁ s₂}, AgreeOnSources i s₁ s₂ → vs s₁ = vs s₂ := by
      intro _ _ h
      simp [h.reg_eq, h.sx_eq, h.ux_eq, Instr.operands]) : WritesFromSources i :=
  ⟨o, vs, hDest, hLength, hExec, hSame⟩

theorem WritesFromSources.of_write
    (hExec : ∀ s, (∀ c, ¬FaultCase i s c) → exec i s = .next (s.write rd (v s)))
    (hDest : i.destRegs = [rd] := by rfl)
    (hSame : ∀ {s₁ s₂}, AgreeOnSources i s₁ s₂ → v s₁ = v s₂ := by
      intro _ _ h
      simp [h.reg_eq, h.sx_eq, h.ux_eq, State.point, State.rect, Instr.operands]) : WritesFromSources i :=
  .of_group (.reg, rd) (vs := fun s => [v s]) hExec hDest (fun _ => rfl) fun h => by rw [hSame h]

end WritesFromSources

/-- Each command's own equation names the patterns it writes, all computed from the registers it reads. -/
theorem writesFromSources {i : Instr} (hWf : i.wellFormed = true) : WritesFromSources i := by
  cases i with
  | fromint rd ra => exact .of_write fun s _ => exec_fromint rd ra s
  | touint rd ra => exact .of_write fun s _ => exec_touint rd ra s
  | tofrac rd ra => exact .of_write fun s _ => exec_tofrac rd ra s
  | toint rd ra => exact .of_write fun s _ => exec_toint rd ra s
  | add rd ra rb => exact .of_write fun s _ => exec_add rd ra rb s
  | sub rd ra rb => exact .of_write fun s _ => exec_sub rd ra rb s
  | mul rd ra rb => exact .of_write fun s _ => exec_mul rd ra rb s
  | mul64 rd ra rb => exact .of_write fun s _ => exec_mul64 rd ra rb s
  | div rd ra rb =>
    exact .of_write fun s hNone =>
      exec_div rd ra fun h => hNone _ (.divideByZero ⟨rd, ra, rb, .inl rfl, h⟩)
  | div64 rd ra rb =>
    exact .of_write fun s hNone =>
      exec_div64 rd ra fun h => hNone _ (.divideByZero ⟨rd, ra, rb, .inr rfl, h⟩)
  | recimul rd ra rb imm => exact .of_write fun s _ => exec_recimul rd ra rb imm s
  | lerp16 rd ra imm =>
    exact .of_write fun s hNone =>
      exec_lerp16 rd (Nat.not_lt.1 fun h => hNone _ (.lutIndex ⟨rd, ra, imm, .inl ⟨rfl, h⟩⟩))
  | lerp32 rd ra imm =>
    exact .of_write fun s hNone =>
      exec_lerp32 rd (Nat.not_lt.1 fun h => hNone _ (.lutIndex ⟨rd, ra, imm, .inr ⟨rfl, .inl h⟩⟩))
        (Nat.not_lt.1 fun h => hNone _ (.lutIndex ⟨rd, ra, imm, .inr ⟨rfl, .inr h⟩⟩))
  | sin rd ra => exact .of_write fun s _ => exec_sin rd ra s
  | cos rd ra => exact .of_write fun s _ => exec_cos rd ra s
  | recip rd ra =>
    exact .of_write fun s hNone =>
      exec_recip rd (Nat.not_lt.1 fun h => hNone _ (.lutDomain ⟨rd, ra, rfl, .inl h⟩))
        (Nat.not_lt.1 fun h => hNone _ (.lutDomain ⟨rd, ra, rfl, .inr h⟩))
  | ptset rd ra rb => exact .of_group (.point, rd) fun s _ => exec_ptset s hWf
  | ptadd rd ra rb => exact .of_group (.point, rd) fun s _ => exec_ptadd s hWf
  | ptsub rd ra rb => exact .of_group (.point, rd) fun s _ => exec_ptsub s hWf
  | ptscale rd ra rb => exact .of_group (.point, rd) fun s _ => exec_ptscale s hWf
  | ptcross rd ra rb => exact .of_write fun s _ => exec_ptcross s hWf
  | ptdot rd ra rb => exact .of_write fun s _ => exec_ptdot s hWf
  | ptinrect rd ra rb => exact .of_write fun s _ => exec_ptinrect s hWf
  | rcset rd ra rb rc re => exact .of_group (.rect, rd) fun s _ => exec_rcset s hWf
  | rcseto rd ra rb rc re => exact .of_group (.rect, rd) fun s _ => exec_rcseto s hWf
  | rcwidth rd ra => exact .of_write fun s _ => exec_rcwidth s hWf
  | rcheight rd ra => exact .of_write fun s _ => exec_rcheight s hWf
  | rcsetpos rd ra rb => exact .of_group (.rect, rd) fun s _ => exec_rcsetpos s hWf
  | rcsetsize rd ra rb => exact .of_group (.rect, rd) fun s _ => exec_rcsetsize s hWf
  | rcmove rd ra rb => exact .of_group (.rect, rd) fun s _ => exec_rcmove s hWf
  | rcinfl rd ra rb => exact .of_group (.rect, rd) fun s _ => exec_rcinfl s hWf
  | rcinflr rd ra rb => exact .of_group (.rect, rd) fun s _ => exec_rcinflr s hWf
  | rcnorm rd ra => exact .of_group (.rect, rd) fun s _ => exec_rcnorm s hWf
  | vset rd ra rb rc => exact .of_group (.vector, rd) fun s _ => exec_vset s hWf
  | vadd rd ra rb => exact .of_group (.vector, rd) fun s _ => exec_vadd s hWf
  | vsub rd ra rb => exact .of_group (.vector, rd) fun s _ => exec_vsub s hWf
  | vmul rd ra rb => exact .of_group (.vector, rd) fun s _ => exec_vmul s hWf
  | vscale rd ra rb => exact .of_group (.vector, rd) fun s _ => exec_vscale s hWf
  | vdot rd ra rb => exact .of_write fun s _ => exec_vdot s hWf
  | vcross rd ra rb => exact .of_group (.vector, rd) fun s _ => exec_vcross s hWf

/-- Settles O19: the fault cases of the two states are the same, and without one both write the
same patterns to the same group. -/
theorem commandsReadOnlyTheirSources : Obligations.CommandsReadOnlyTheirSources := by
  intro i s₁ s₂ t₁ t₂ (hAgree : AgreeOnSources i s₁ s₂) hf₁ hf₂ ht₁ ht₂
  by_cases hCase : ∃ c, FaultCase i s₁ c
  · obtain ⟨c, hCase⟩ := hCase
    obtain ⟨hFault₁, hCause₁, hWord₁, -⟩ := of_faults hCase.faults ht₁
    obtain ⟨hFault₂, hCause₂, hWord₂, -⟩ := of_faults (hCase.of_agree hAgree).faults ht₂
    exact ⟨hFault₁.trans hFault₂.symm, fun _ => ⟨hCause₁.trans hCause₂.symm, hWord₁.trans hWord₂.symm⟩,
      fun hNot => absurd hFault₁ (Bool.eq_false_iff.1 hNot)⟩
  · have hNone₁ (c : Cause) (h : FaultCase i s₁ c) : False := hCase ⟨c, h⟩
    have hNone₂ (c : Cause) (h : FaultCase i s₂ c) : False := hNone₁ c (h.of_agree hAgree.symm)
    have hWf : i.wellFormed = true := Bool.of_not_eq_false fun h => hNone₁ _ (.illegalCommand h)
    obtain ⟨o, vs, hDest, hLength, hExec, hSame⟩ := writesFromSources hWf
    cases (hExec s₁ hNone₁).symm.trans ht₁
    cases (hExec s₂ hNone₂).symm.trans ht₂
    have hFault : (s₁.writeGroup o.2 (vs s₁)).fault = false := by simp [hf₁]
    refine ⟨hFault.trans (by simp [hf₂]), fun h => absurd h (Bool.eq_false_iff.1 hFault), fun _ r hr => ?_⟩
    rw [hDest, operand_regs_eq_groupRegs, ← hLength s₁] at hr
    rw [← hSame hAgree]
    exact reg_writeGroup_eq s₁ s₂ (vs s₁) hr

end Sys2Proof.Machine
end

section
/-! The assembler on the text that it writes (30_encoding.md R89, R90). The text is taken apart as it was put together:
the mnemonic, then operands between commas, each of them tokens of its own; from the tokens the operands are read back,
and from the mnemonic the command. -/

namespace Sys2Proof.Machine

/-! ## The tokens of a text -/

/-- The character belongs to a word: it is no token of its own, and neither a comment's beginning nor a space. -/
def isWordChar (c : Char) : Bool := c ∉ [';', ',', '(', ')', '#'] && !c.isWhitespace

theorem isWordChar_iff {c : Char} :
    isWordChar c = true ↔ c ∉ [';', ',', '(', ')', '#'] ∧ c.isWhitespace = false := by
  simp [isWordChar]

/-- A nonempty string of word characters. -/
def isWordText (w : String) : Bool := !w.toList.isEmpty && w.toList.all isWordChar

theorem isWordText_iff {w : String} :
    isWordText w = true ↔ w.toList ≠ [] ∧ ∀ c ∈ w.toList, isWordChar c = true := by
  simp [isWordText]

/-- A word that is being read ends before these characters. -/
def EndsWord (cs : List Char) : Prop := ∀ c ∈ cs.head?, isWordChar c = false

section Tokenize

variable {cs acc : List Char} {w : String}

theorem endsWord_nil : EndsWord [] := by simp [EndsWord]

theorem endsWord_cons {c : Char} (h : isWordChar c = false) : EndsWord (c :: cs) := by simpa [EndsWord] using h

theorem tokenize_cons_wordChar {c : Char} (h : isWordChar c = true) (acc cs : List Char) :
    tokenize acc (c :: cs) = tokenize (c :: acc) cs := by
  obtain ⟨hToken, hSpace⟩ := isWordChar_iff.1 h
  simp_all [tokenize]

theorem tokenize_wordChars {ws : List Char} (h : ∀ c ∈ ws, isWordChar c = true) (acc cs : List Char) :
    tokenize acc (ws ++ cs) = tokenize (ws.reverse ++ acc) cs := by
  induction ws generalizing acc with
  | nil => rfl
  | cons c ws ih =>
    obtain ⟨hc, hws⟩ := List.forall_mem_cons.1 h
    rw [List.cons_append, tokenize_cons_wordChar hc, ih hws, List.reverse_cons, List.append_assoc]
    rfl

/-- At the end of a word the tokens are the word and those of the rest. -/
theorem tokenize_of_endsWord (h : EndsWord cs) (acc : List Char) :
    tokenize acc cs = flushWord acc ++ tokenize [] cs := by
  have hEmpty : flushWord [] = [] := rfl
  cases cs with
  | nil => simp [tokenize, hEmpty]
  | cons c cs =>
    have hBreak := h c rfl
    simp only [tokenize]
    split_ifs <;> simp_all [isWordChar]

theorem tokenize_word (hw : isWordText w = true) (h : EndsWord cs) :
    tokenize [] (w.toList ++ cs) = .word w :: tokenize [] cs := by
  obtain ⟨hNonempty, hChars⟩ := isWordText_iff.1 hw
  have hFlush : flushWord w.toList.reverse = [.word w] := by simp [flushWord, hNonempty]
  rw [tokenize_wordChars hChars, List.append_nil, tokenize_of_endsWord h, hFlush]
  rfl

end Tokenize

/-! ## The operands -/

/-- The operands of a command as the assembler reads them, the registers first (R89). -/
def asmOperands (i : Instr) : List AsmOperand :=
  i.operands.map (fun o => .reg o.2) ++ (immediate i).toList.map .imm

def AsmOperand.text : AsmOperand → String
  | .reg r => regName r
  | .imm n => "#" ++ Nat.repr n.val

def AsmOperand.tokens : AsmOperand → List Token
  | .reg r => [.word (regName r)]
  | .imm n => [.hash, .word (Nat.repr n.val)]

/-- The tokens of operands between commas. -/
def operandTokens (os : List AsmOperand) : List Token := [Token.comma].intercalate (os.map AsmOperand.tokens)

section Operands

variable {os : List AsmOperand} {cs : List Char}

theorem asmText_eq (i : Instr) :
    asmText i = i.mnemonic ++ " " ++ ", ".intercalate ((asmOperands i).map AsmOperand.text) := by
  simp [asmText, asmOperands, AsmOperand.text, Function.comp_def]

theorem isWordText_regName : ∀ r : Reg, isWordText (regName r) = true := by decide +kernel

theorem isWordText_repr : ∀ n : Imm5, isWordText (Nat.repr n.val) = true := by decide +kernel

theorem readReg_regName : ∀ r : Reg, readReg (regName r) = some r := by decide +kernel

theorem readImm_repr : ∀ n : Imm5, readImm (Nat.repr n.val) = some n := by decide +kernel

theorem tokenize_operand (o : AsmOperand) (h : EndsWord cs) :
    tokenize [] (o.text.toList ++ cs) = o.tokens ++ tokenize [] cs := by
  cases o with
  | reg r => exact tokenize_word (isWordText_regName r) h
  | imm n =>
    have hHash : tokenize [] ('#' :: ((Nat.repr n.val).toList ++ cs)) =
        .hash :: tokenize [] ((Nat.repr n.val).toList ++ cs) := rfl
    simp only [AsmOperand.text, String.toList_append, List.append_assoc]
    exact hHash.trans (congrArg _ (tokenize_word (isWordText_repr n) h))

theorem tokenize_operands (os : List AsmOperand) :
    tokenize [] (", ".toList.intercalate (os.map fun o => o.text.toList)) = operandTokens os := by
  induction os with
  | nil => rfl
  | cons o os ih =>
    cases os with
    | nil =>
      have hLast := tokenize_operand o endsWord_nil
      simpa [operandTokens, tokenize, flushWord] using hLast
    | cons o' os =>
      have hComma (cs : List Char) : tokenize [] (", ".toList ++ cs) = .comma :: tokenize [] cs := rfl
      have hEnds (cs : List Char) : EndsWord (", ".toList ++ cs) := endsWord_cons (c := ',') (by decide)
      simp only [List.map_cons, List.intercalate_cons_cons, operandTokens] at ih ⊢
      rw [List.append_assoc, tokenize_operand o (hEnds _), hComma, ih]
      simp

theorem operandTokens_reg_cons (r : Reg) (o : AsmOperand) (os : List AsmOperand) :
    operandTokens (.reg r :: o :: os) = .word (regName r) :: .comma :: operandTokens (o :: os) := by
  simp [operandTokens, AsmOperand.tokens, List.intercalate_cons_cons]

/-- Registers and at most one immediate behind them are read back from their tokens. -/
theorem readOperands_operandTokens (rs : List Reg) (imm : Option Imm5) (h : rs ≠ [] ∨ imm ≠ none) :
    readOperands (operandTokens (rs.map .reg ++ imm.toList.map .imm)) =
      some (rs.map .reg ++ imm.toList.map .imm) := by
  induction rs with
  | nil =>
    obtain ⟨n, rfl⟩ := Option.ne_none_iff_exists'.1 (h.resolve_left (not_not_intro rfl))
    simp [operandTokens, AsmOperand.tokens, readOperands, readImm_repr]
  | cons r rs ih =>
    by_cases hMore : rs ≠ [] ∨ imm ≠ none
    · obtain ⟨o, os, hRest⟩ : ∃ o os, rs.map AsmOperand.reg ++ imm.toList.map .imm = o :: os := by
        refine List.exists_cons_of_ne_nil ?_
        simpa [Option.toList_eq_nil_iff, or_iff_not_imp_left] using hMore
      have hRead := ih hMore
      rw [List.map_cons, List.cons_append]
      rw [hRest] at hRead ⊢
      rw [operandTokens_reg_cons, readOperands, readReg_regName, hRead]
    · obtain ⟨rfl, rfl⟩ : rs = [] ∧ imm = none := by simpa using hMore
      simp [operandTokens, AsmOperand.tokens, readOperands, readReg_regName]

end Operands

/-! ## The command -/

section Command

variable {i : Instr}

/-- The words with which a line begins that is no command (R92). -/
def scriptWords : List String := ["wreg", "cmd", "rreg", "rstat", "rfcmd", "clrf", "reset"]

theorem mnemonic_mem (i : Instr) : i.mnemonic ∈ opcodeMap.map OpcodeRow.mnemonic := by
  obtain ⟨row, hRow, hMnemonic, -⟩ := encodesRow i
  exact hMnemonic ▸ List.mem_map_of_mem hRow

theorem isWordText_mnemonic (i : Instr) : isWordText i.mnemonic = true := by
  have hAll : ∀ m ∈ opcodeMap.map OpcodeRow.mnemonic, isWordText m = true := by decide +kernel
  exact hAll _ (mnemonic_mem i)

theorem mnemonic_not_mem_scriptWords (i : Instr) : i.mnemonic ∉ scriptWords := by
  have hAll : ∀ m ∈ opcodeMap.map OpcodeRow.mnemonic, m ∉ scriptWords := by decide +kernel
  exact hAll _ (mnemonic_mem i)

/-- Every mnemonic has the operand form of its command. -/
theorem ofMnemonic_asmOperands (i : Instr) : ofMnemonic i.mnemonic (asmOperands i) = some i := by
  cases i <;> rfl

/-- The other forms of a script line begin with a word of their own. -/
theorem readLine_of_command {line m : String} {ts : List Token} (h : tokenize [] line.toList = .word m :: ts)
    (hm : m ∉ scriptWords) :
    readLine line = (readCommand (.word m :: ts)).map fun i => [hostWriteCmd (encode i)] := by
  simp only [scriptWords, List.mem_cons, not_or] at hm
  unfold readLine
  rw [h]
  split <;> simp_all

theorem tokenize_asmText (i : Instr) :
    tokenize [] (asmText i).toList = .word i.mnemonic :: operandTokens (asmOperands i) := by
  have hSpace (cs : List Char) : tokenize [] (' ' :: cs) = tokenize [] cs := rfl
  have hEnds (cs : List Char) : EndsWord (' ' :: cs) := endsWord_cons (by decide)
  rw [asmText_eq, String.toList_append, String.toList_append, List.append_assoc, show " ".toList = [' '] from rfl,
    List.singleton_append, tokenize_word (isWordText_mnemonic i) (hEnds _), hSpace, String.toList_intercalate,
    List.map_map]
  exact congrArg _ (tokenize_operands (asmOperands i))

theorem readOperands_asmOperands (i : Instr) : readOperands (operandTokens (asmOperands i)) = some (asmOperands i) := by
  have hRegs : i.operands.map Prod.snd ≠ [] := by cases i <;> exact List.cons_ne_nil _ _
  have hRead := readOperands_operandTokens _ (immediate i) (.inl hRegs)
  rwa [List.map_map] at hRead

theorem readCommand_asmText (hWf : i.wellFormed = true) :
    readCommand (.word i.mnemonic :: operandTokens (asmOperands i)) = some i := by
  simp [readCommand, readOperands_asmOperands, ofMnemonic_asmOperands, hWf]

theorem readLine_asmText (hWf : i.wellFormed = true) : readLine (asmText i) = some [hostWriteCmd (encode i)] := by
  rw [readLine_of_command (tokenize_asmText i) (mnemonic_not_mem_scriptWords i), readCommand_asmText hWf]
  rfl

end Command

/-- Settles O8: the text's tokens are the mnemonic and the operands it was made of; the pseudo-instructions evaluate. -/
theorem assemblerReadsWhatItWrites : Obligations.AssemblerReadsWhatItWrites :=
  ⟨fun _ => readLine_asmText, fun _ _ => ⟨rfl, rfl, rfl, rfl, rfl, rfl, rfl⟩⟩

end Sys2Proof.Machine
end
